-- ==== Sys2Proof/Word.lean ====
section
/-! DEFINITION. The word types of SLH-ISP: the element widths of 20_memory.md R31 and the format widths of
30_encoding.md R47. Every quantity of the block is unsigned (00_scope.md R10). -/

namespace Sys2Proof

/-- Format `PIX16`: one packed colour pixel, an element of `RAW` (30_encoding.md R47, R48). -/
abbrev Pixel := BitVec 16

/-- Format `LUM8`: one intensity, an element of `LUMA` and of `OUT` (30_encoding.md R59). -/
abbrev Byte := BitVec 8

/-- Format `CMD32`: one command word, and the width of the registers `CMD` and `STATUS`
(30_encoding.md R50, 10_state.md R17, R18). -/
abbrev CmdWord := BitVec 32

/-- Format `PHASE3` (30_encoding.md R53). -/
abbrev PhaseBits := BitVec 3

/-- Format `CODE2` (30_encoding.md R52). -/
abbrev CodeBits := BitVec 2

/-- The weighted-sum accumulator `ACC`, `ACC_BITS` = 18 bits (00_scope.md R7, 10_state.md R21). -/
abbrev Acc := BitVec 18

end Sys2Proof
end

