-- ==== Sys2Proof/Config.lean ====
section
/-! DEFINITION. What the hardware fixes (00_scope.md R6, R7: constants, not arguments of any operation) and the free
values: opaque constants without a body, so nothing can be proved of the value of one (log 3, 4, 7, 8, 10).
The literals stand here once, so that a correction touches one place (93_implementation_defined.md U13, log 25). -/

namespace Sys2Proof.Config

/-- `CAM_CAPTURE_W`, `SRC_W` (00_scope.md R6). -/
abbrev srcW : Nat := 176
/-- `CAM_CAPTURE_H`, `SRC_H` (00_scope.md R6). -/
abbrev srcH : Nat := 144
/-- `N_PIX` = 176 * 144, the elements of `RAW` and of `LUMA` (00_scope.md R6, 20_memory.md R31). -/
abbrev nPix : Nat := 25344
/-- `OUT_W` (00_scope.md R6). -/
abbrev outW : Nat := 32
/-- `OUT_H` (00_scope.md R6). -/
abbrev outH : Nat := 32
/-- `N_OUT` = 32 * 32 * 1, the elements of `OUT` (00_scope.md R6, 20_memory.md R31). -/
abbrev nOut : Nat := 1024

/-- The supported `wanted_width`, `wanted_height` and `wanted_channels` (30_encoding.md R50). -/
abbrev wantedW : Nat := 32
/-- See `wantedW`. -/
abbrev wantedH : Nat := 32
/-- `OUT_CH` (00_scope.md R6). -/
abbrev wantedCh : Nat := 1

/-- The register number of `CMD` (10_state.md R17, 20_memory.md R39). -/
abbrev cmdNumber : Nat := 0
/-- The register number of `STATUS` (10_state.md R18, 20_memory.md R39). -/
abbrev statusNumber : Nat := 1

/-- `R_MAX` and `B_MAX`, the `maxForBits` of a 5-bit field (00_scope.md R6). -/
abbrev max5 : Nat := 31
/-- `G_MAX`, the `maxForBits` of a 6-bit field (00_scope.md R6). -/
abbrev max6 : Nat := 63

/-- `WQ_R`, `WQ_G`, `WQ_B` over `WQ_DEN`: the luma weights as exact integers (00_scope.md R7, 92 D9, log 18). -/
abbrev weightR : Nat := 299
/-- See `weightR`. -/
abbrev weightG : Nat := 587
/-- See `weightR`. -/
abbrev weightB : Nat := 114
/-- See `weightR`. -/
abbrev weightDen : Nat := 1000

/-- Free value: what `RAW[i]` holds after the `epoch`-th reset until it is written (10_state.md R28: unspecified;
log 7). -/
opaque rawAtReset (epoch i : Nat) : Pixel

/-- Free value: what `LUMA[i]` holds after the `epoch`-th reset until it is written (10_state.md R28; log 7). -/
opaque lumaAtReset (epoch i : Nat) : Byte

/-- Free value: what `OUT[i]`, memory of the host, holds until it is written; reset does not change it
(10_state.md R24, R28; log 8). -/
opaque outAtStart (i : Nat) : Byte

/-- Free value: what a host read of the write-only register `CMD` returns at the `draw`-th free choice
(10_state.md R17; log 4). -/
opaque cmdReadValue (draw : Nat) : CmdWord

/-- Free choice: which of the two outcomes 20_memory.md R46 or 70_reset_and_hazards.md R119 allows for element `i`
(log 3, 10). -/
opaque raceChoice (draw i : Nat) : Bool

end Sys2Proof.Config
end

