-- ==== Sys2Proof/Syntax.lean ====
section
/-! DEFINITION. The operations of SLH-ISP as syntax: one constructor per row of spec/opcode_table.json
(30_encoding.md R54). -/

namespace Sys2Proof

/-- The five operations. GETIMAGE is the one host command; the other four are the stage operations the controller
sequences (30_encoding.md R54). Stage operations have no encoded operands (R51). -/
inductive Instr where
  /-- `GETIMAGE w, h, ch` (30_encoding.md R57): wanted_width, wanted_height, wanted_channels as the caller wrote
  them. Whether they fit the command word is `Instr.wellFormed`. -/
  | getimage (w h ch : Nat)
  /-- `CHECK` (42_pipeline.md R88). -/
  | check
  /-- `CAPTURE` (42_pipeline.md R89). -/
  | capture
  /-- `CONVERT` (40_colorconverter.md R69). -/
  | convert
  /-- `RESAMPLE` (41_resampler.md R79). -/
  | resample
  deriving DecidableEq, Repr

end Sys2Proof
end

