-- ==== Sys2Proof/WellFormed.lean ====
section
/-! DEFINITION. Which terms of `Instr` are instructions: the ranges of 30_encoding.md R57. -/

namespace Sys2Proof

/-- "with 0 <= w, h <= 4095 and 0 <= ch <= 255" (30_encoding.md R57). The stage operations have no operand. -/
def Instr.wellFormed : Instr → Bool
  | .getimage w h ch => decide (w ≤ 4095) && decide (h ≤ 4095) && decide (ch ≤ 255)
  | .check => true
  | .capture => true
  | .convert => true
  | .resample => true

end Sys2Proof
end

