-- ==== Sys2Proof/Decode.lean ====
section
/-! DEFINITION. Decoding and encoding (30_encoding.md R47 to R56). Two formats carry operations: a `CMD32` word the
host writes to `CMD`, and the `PHASE3` value that selects the controller's stage operation. No format is of variable
length (R56). -/

namespace Sys2Proof

/-- The bits an operation is read from: a word written to `CMD` (30_encoding.md R50), or the value of `PHASE` (R53). -/
inductive OpWord where
  | cmd (c : CmdWord)
  | phase (p : PhaseBits)
  deriving DecidableEq, Repr

/-- Why bits are no operation. -/
inductive DecodeError where
  /-- `PHASE3` = 0, IDLE: no operation is selected, the controller waits (30_encoding.md R53). Safe. -/
  | idleSelectsNothing
  /-- `PHASE3` = 5, 6 or 7: produced by no rule (30_encoding.md R53, R55). Safe. -/
  | reservedPhase
  /-- Not a width of 30_encoding.md R47 that carries an operation, or bits set above the format's. Safe. -/
  | noSuchFormat
  deriving DecidableEq, Repr

/-- Field `W` of a command word, bits 11:0 (30_encoding.md R50, R51). -/
def cmdFieldW (c : CmdWord) : BitVec 12 := c.extractLsb' 0 12
/-- Field `H` of a command word, bits 23:12 (30_encoding.md R50, R51). -/
def cmdFieldH (c : CmdWord) : BitVec 12 := c.extractLsb' 12 12
/-- Field `CH` of a command word, bits 31:24 (30_encoding.md R50, R51). -/
def cmdFieldCh (c : CmdWord) : BitVec 8 := c.extractLsb' 24 8

/-- "encodes as (ch << 24) | (h << 12) | w" (30_encoding.md R57). -/
def packCmd (w h ch : Nat) : CmdWord :=
  (BitVec.ofNat 32 ch <<< 24) ||| (BitVec.ofNat 32 h <<< 12) ||| BitVec.ofNat 32 w

/-- Every command word is a GETIMAGE (30_encoding.md R50, R54, R55). -/
def decodeCmd (c : CmdWord) : Instr :=
  .getimage (cmdFieldW c).toNat (cmdFieldH c).toNat (cmdFieldCh c).toNat

/-- The stage operation a value of `PHASE` selects (30_encoding.md R53). -/
def decodePhase (p : PhaseBits) : Except DecodeError Instr :=
  if p = 0#3 then .error .idleSelectsNothing
  else if p = 1#3 then .ok .check
  else if p = 2#3 then .ok .capture
  else if p = 3#3 then .ok .convert
  else if p = 4#3 then .ok .resample
  else .error .reservedPhase

/-- The decoder, total on the bits of both formats. -/
def decode : OpWord → Except DecodeError Instr
  | .cmd c => .ok (decodeCmd c)
  | .phase p => decodePhase p

/-- The encoder, from the tables of 30_encoding.md R50 and R53. -/
def encode : Instr → OpWord
  | .getimage w h ch => .cmd (packCmd w h ch)
  | .check => .phase 0b001#3
  | .capture => .phase 0b010#3
  | .convert => .phase 0b011#3
  | .resample => .phase 0b100#3

/-- The row of spec/opcode_table.json an instruction belongs to. -/
def Instr.mnemonic : Instr → String
  | .getimage _ _ _ => "GETIMAGE"
  | .check => "CHECK"
  | .capture => "CAPTURE"
  | .convert => "CONVERT"
  | .resample => "RESAMPLE"

/-- The textual form of 30_encoding.md R57; a stage operation has only its name (R54). -/
def Instr.text (i : Instr) : String :=
  match i with
  | .getimage w h ch => i.mnemonic ++ " " ++ toString w ++ ", " ++ toString h ++ ", " ++ toString ch
  | .check => i.mnemonic
  | .capture => i.mnemonic
  | .convert => i.mnemonic
  | .resample => i.mnemonic

/-- The bits of an opcode-table row as an operation's bits (log 16): 32 bits are a command word; up to one byte is a
value of `PHASE`, whose bits above bit 2 must be 0. No byte order is involved: both formats are single values
(20_memory.md R35). -/
def opWordOfTable (nbits w : Nat) : Except DecodeError OpWord :=
  if nbits = 32 then
    if w < 2 ^ 32 then .ok (.cmd (BitVec.ofNat 32 w)) else .error .noSuchFormat
  else if nbits ≤ 8 then
    if w < 2 ^ 3 then .ok (.phase (BitVec.ofNat 3 w)) else .error .noSuchFormat
  else .error .noSuchFormat

/-- The instruction the decoder reads from a table row's bits; none where it refuses. -/
def decodeTableWord (nbits w : Nat) : Option Instr :=
  match opWordOfTable nbits w with
  | .ok f =>
    match decode f with
    | .ok i => some i
    | .error _ => none
  | .error _ => none

end Sys2Proof
end

