-- ==== Sys2Proof/Machine/State.lean ====
section
/-! DEFINITION. The complete state of the block and of the memories its rules touch (10_state.md R14), as plain data,
with the model's own fields marked as such, the stops of a step, and the state after reset (10_state.md R28). -/

namespace Sys2Proof.Machine

/-- `PHASE` (10_state.md R15, codes 30_encoding.md R53). An enumeration: values 5 to 7 cannot be written (R55). -/
inductive Phase where
  | idle
  | check
  | capture
  | convert
  | resample
  deriving DecidableEq, Repr

/-- `CODE`, the status of a command (30_encoding.md R52). An enumeration: value 3 cannot be written (R55). -/
inductive Code where
  /-- "the command completed and `OUT` holds the new tensor" -/
  | ok
  /-- "the external FrameSource could not deliver a frame" -/
  | captureFailure
  /-- a request for other than 32 x 32 x 1 -/
  | unsupportedResolution
  deriving DecidableEq, Repr

/-- The two registers the host can name (20_memory.md R39). -/
inductive HostReg where
  | cmd
  | status
  deriving DecidableEq, Repr

/-- The three address spaces (20_memory.md R31). -/
inductive Space where
  | raw
  | luma
  | out
  deriving DecidableEq, Repr

/-- The three buffers, each a list of (element index, element), indices strictly rising (`Memory.wf`). An element that
is not listed has not been written; `State.rawAt`, `State.lumaAt` and `State.outAt` say what it reads as (log 7, 8). -/
structure Memory where
  /-- `RAW`: 25344 elements of 16 bits (10_state.md R22). -/
  raw : List (Nat × Pixel)
  /-- `LUMA`: 25344 elements of 8 bits (10_state.md R23). -/
  luma : List Host.Cell
  /-- `OUT`: 1024 elements of 8 bits, the host's memory (10_state.md R24). -/
  out : List Host.Cell
  deriving DecidableEq, Repr

/-- A whole frame as data: the listed pixels, and `fill` everywhere else. Every content of `RAW` is such a datum
(list all 25344 elements), so a claim about every `Frame` is a claim about every frame (42_pipeline.md R87, log 13). -/
structure Frame where
  fill : Pixel
  cells : List (Nat × Pixel)
  deriving DecidableEq, Repr

/-- The FrameSource's answer `CAP_DONE` (30_encoding.md R60, 42_pipeline.md R87): the bit `CAP_OK`, and what `RAW` holds
at that moment, which is the delivered frame when `CAP_OK` = 1 and anything at all when `CAP_OK` = 0. -/
structure CapAnswer where
  capOk : Bool
  frame : Frame
  deriving DecidableEq, Repr

/-- One move of the block's surroundings, or the controller's turn (42_pipeline.md R85, R100; log 14). -/
inductive Input where
  /-- The controller executes the stage operation its phase selects. -/
  | turn
  /-- Host: write of the register with number `n` (20_memory.md R39; the numbers are decoded by `hostRegOf`). -/
  | regWrite (n : Nat) (v : CmdWord)
  /-- Host: read of the register with number `n` (20_memory.md R39). -/
  | regRead (n : Nat)
  /-- Host: `READ OUT[i]` (30_encoding.md R57). -/
  | outRead (i : Nat)
  /-- Host: `WRITE OUT[i], v` (30_encoding.md R57). -/
  | outWrite (i : Nat) (v : Byte)
  /-- Host: the reset input (70_reset_and_hazards.md R117). -/
  | reset
  /-- FrameSource: a write of one element of `RAW` during a capture (10_state.md R26 b). -/
  | rawWrite (i : Nat) (v : Pixel)
  /-- FrameSource: the answer `CAP_DONE` (42_pipeline.md R87). -/
  | capDone (a : CapAnswer)
  deriving DecidableEq, Repr

/-- The host's write of register 0, `CMD`: one GetImage call (10_state.md R17). -/
abbrev Input.cmdWrite (c : CmdWord) : Input := .regWrite Config.cmdNumber c
/-- The host's read of the write-only register `CMD` (10_state.md R17). -/
abbrev Input.cmdRead : Input := .regRead Config.cmdNumber
/-- The host's read of register 1, `STATUS` (10_state.md R18). -/
abbrev Input.statusRead : Input := .regRead Config.statusNumber
/-- The host's write of the read-only register `STATUS` (10_state.md R18). -/
abbrev Input.statusWrite (v : CmdWord) : Input := .regWrite Config.statusNumber v

/-- What the host got back from a read (42_pipeline.md R92, R100). -/
inductive Observation where
  | status (v : CmdWord)
  | cmd (v : CmdWord)
  | out (i : Nat) (v : Byte)
  deriving DecidableEq, Repr

/-- The state. The fields down to `mem` are those of 10_state.md R14; the rest are the model's. -/
structure State where
  /-- `PHASE` (R15). -/
  phase : Phase
  /-- `DONE` (R16). -/
  done : Bool
  /-- `CODE` (R16). -/
  code : Code
  /-- `CMD_W` (R19). -/
  cmdW : BitVec 12
  /-- `CMD_H` (R19). -/
  cmdH : BitVec 12
  /-- `CMD_CH` (R19). -/
  cmdCh : BitVec 8
  /-- `CAP_REQ` (R20; log 21). -/
  capReq : Bool
  /-- `IDX` (R21). -/
  idx : BitVec 15
  /-- `XO` (R21). -/
  xo : BitVec 5
  /-- `YO` (R21). -/
  yo : BitVec 5
  /-- `ACC` (R21). -/
  acc : Acc
  /-- `RAW`, `LUMA`, `OUT` (R22 to R24). -/
  mem : Memory
  /-- The parameter `LEGACY_UNCHECKED` (00_scope.md R9, R27 b); no step changes it (log 1). -/
  legacyUnchecked : Bool
  /-- MODEL: whether the two host accesses to `CMD` the spec asks a model to refuse, a write while BUSY (60_exceptions.md
  R116) and a read (10_state.md R17), are refused (true) or get the hardware's answer: the write is ignored, the read
  returns `any` (false). No step changes it (log 2, 4). -/
  cmdMisuseRefused : Bool
  /-- MODEL: what happens next outside the controller, first move first; when empty the controller has its turn
  (log 14). -/
  inputs : List Input
  /-- MODEL: the answer the FrameSource presents to `CAPTURE` in this step (log 13). -/
  capDone : Option CapAnswer
  /-- MODEL: what the host has read, newest first (log 20). -/
  observed : List Observation
  /-- MODEL: the indices of `OUT` the host wrote while this command was running (20_memory.md R46, log 3). -/
  outRaces : List Nat
  /-- MODEL: how many resets were applied; selects the unspecified contents of `RAW` and `LUMA` (log 7, 24). -/
  epoch : Nat
  /-- MODEL: the counter of free choices (log 24). -/
  draws : Nat
  deriving DecidableEq, Repr

/-- Why the machine stops with a fault. The block itself has no fault (60_exceptions.md R101, R105). -/
inductive Fault where
  /-- Raised by a host access to `OUT` or a FrameSource write of `RAW` at an index 20_memory.md R31 says does not exist
  (log 19). Safe: the model stops. -/
  | noSuchElement (space : Space) (i : Nat)
  /-- Raised by a host access to a register number other than the two of 20_memory.md R39 (log 29). Safe: the model
  stops. -/
  | noSuchRegister (n : Nat)
  deriving DecidableEq, Repr

/-- Why a step is refused. -/
inductive Refusal where
  /-- Raised by `exec` for an instruction without a meaning; no arm raises it in this model. Safe. -/
  | notModelled (mnemonic : String)
  /-- Raised by GETIMAGE with a number that does not fit its field: the driver must not write `CMD`
  (30_encoding.md R58, 93_implementation_defined.md U12; log 17). Never raised by a decoded word. Safe. -/
  | unrepresentableRequest
  /-- Raised by a FrameSource write of `RAW` while `CAP_REQ` = 0, which 42_pipeline.md R87 and
  70_reset_and_hazards.md R125 forbid (93_implementation_defined.md U5; log 15). Safe: the model stops. -/
  | frameSourceOutsideCapture
  /-- Raised by a host write of `CMD` while BUSY where `cmdMisuseRefused` is true: "the host has no such move (refuse)"
  (60_exceptions.md R116, 70_reset_and_hazards.md R122, 93_implementation_defined.md U2; log 2). Safe: the model stops. -/
  | commandWhileBusy
  /-- Raised by a host read of `CMD` where `cmdMisuseRefused` is true: "the model should refuse the read" (10_state.md R17;
  log 4). Safe: the model stops. -/
  | readOfCmd
  deriving DecidableEq, Repr

/-- The outcomes of a step. -/
abbrev Result := Host.Outcome State Fault Refusal

/-- After reset (10_state.md R28): IDLE, nothing done, no request. The latches and working registers have no specified
value; 0 is this model's (log 5, 6). `RAW`, `LUMA` and `OUT` list nothing: their contents are free values (log 7, 8).
`LEGACY_UNCHECKED` has its default (00_scope.md R9); a `CMD` write while BUSY and a read of `CMD` are refused
(60_exceptions.md R116, 10_state.md R17; log 2, 4). -/
def State.reset : State where
  phase := .idle
  done := false
  code := .ok
  cmdW := 0
  cmdH := 0
  cmdCh := 0
  capReq := false
  idx := 0
  xo := 0
  yo := 0
  acc := 0
  mem := { raw := [], luma := [], out := [] }
  legacyUnchecked := false
  cmdMisuseRefused := true
  inputs := []
  capDone := none
  observed := []
  outRaces := []
  epoch := 0
  draws := 0

end Sys2Proof.Machine
end

