-- ==== Sys2Proof/Machine/Ops.lean ====
section
/-! DEFINITION. The named operations over the buffers and the registers, and `complete`, which stands where a processor
takes an exception (60_exceptions.md R101, R109), with the acceptance of the next command, which stands where it returns
from one (R110). -/

namespace Sys2Proof.Machine

/-! ### Buffers -/

/-- What a list of elements holds at index `i`: none where nothing was written. -/
def cellAt? {w : Nat} (cells : List (Nat × BitVec w)) (i : Nat) : Option (BitVec w) :=
  match cells with
  | [] => none
  | (j, v) :: rest => if j = i then some v else cellAt? rest i

/-- Write one element, keeping the indices strictly rising. -/
def putCell {w : Nat} (cells : List (Nat × BitVec w)) (i : Nat) (v : BitVec w) : List (Nat × BitVec w) :=
  match cells with
  | [] => [(i, v)]
  | (j, u) :: rest =>
    if i < j then (i, v) :: (j, u) :: rest
    else if i = j then (i, v) :: rest
    else (j, u) :: putCell rest i v

/-- A buffer all of whose elements 0..n-1 were written, element `i` with `f i`. (`List.range'` gives its elements from
the front one at a time, so that no comparison of states lists all of them.) -/
def fillCells {w : Nat} (n : Nat) (f : Nat → BitVec w) : List (Nat × BitVec w) :=
  (List.range' 0 n).map fun i => (i, f i)

/-- The indices are strictly rising, each at least `lo` and below `n`. -/
def cellsWf {w : Nat} (lo n : Nat) (cells : List (Nat × BitVec w)) : Bool :=
  match cells with
  | [] => true
  | (j, _) :: rest => decide (lo ≤ j) && decide (j < n) && cellsWf (j + 1) n rest

/-- The canonical form of the three buffers: strictly rising indices, all of them indices 20_memory.md R31 gives. An
unlisted element holds no written value, so no listed element can equal it (log 7, 8). -/
def Memory.wf (m : Memory) : Bool :=
  cellsWf 0 Config.nPix m.raw && cellsWf 0 Config.nPix m.luma && cellsWf 0 Config.nOut m.out

/-- `RAW[i]`: the last value written, or the unspecified reset content (20_memory.md R38, 10_state.md R28). -/
def State.rawAt (s : State) (i : Nat) : Pixel :=
  (cellAt? s.mem.raw i).getD (Config.rawAtReset s.epoch i)

/-- `LUMA[i]`: the last value written, or the unspecified reset content (20_memory.md R38, 10_state.md R28). -/
def State.lumaAt (s : State) (i : Nat) : Byte :=
  (cellAt? s.mem.luma i).getD (Config.lumaAtReset s.epoch i)

/-- `OUT[i]`: the last value written, or what the host's memory held before (20_memory.md R38, 10_state.md R28). -/
def State.outAt (s : State) (i : Nat) : Byte :=
  (cellAt? s.mem.out i).getD (Config.outAtStart i)

/-- `F[i]`, a pixel of a frame. -/
def Frame.at (f : Frame) (i : Nat) : Pixel :=
  (cellAt? f.cells i).getD f.fill

/-- `RAW[i] <- v`. -/
def State.putRaw (s : State) (i : Nat) (v : Pixel) : State :=
  { s with mem := { s.mem with raw := putCell s.mem.raw i v } }

/-- `OUT[i] <- v`. -/
def State.putOut (s : State) (i : Nat) (v : Byte) : State :=
  { s with mem := { s.mem with out := putCell s.mem.out i v } }

/-- `OUT[i] <- v` by the host while a command runs: the index is remembered (20_memory.md R46, log 3). -/
def State.putOutRaced (s : State) (i : Nat) (v : Byte) : State :=
  { s.putOut i v with outRaces := i :: s.outRaces }

/-- `RAW[i] <- f i` for every `i` in 0..25343. -/
def State.fillRaw (s : State) (f : Nat → Pixel) : State :=
  { s with mem := { s.mem with raw := fillCells Config.nPix f } }

/-- `LUMA[i] <- f i` for every `i` in 0..25343. -/
def State.fillLuma (s : State) (f : Nat → Byte) : State :=
  { s with mem := { s.mem with luma := fillCells Config.nPix f } }

/-- `OUT[j] <- f j` for every `j` in 0..1023. -/
def State.fillOut (s : State) (f : Nat → Byte) : State :=
  { s with mem := { s.mem with out := fillCells Config.nOut f } }

/-! ### Sequencing -/

/-- `complete(c)`: `CODE <- c; DONE <- 1; PHASE <- IDLE` (00_scope.md R11, 60_exceptions.md R101). Nothing else of the
spec's state changes (R109). The host's unfinished accesses to `OUT` are over with the command (log 3). -/
def complete (c : Code) (s : State) : State :=
  { s with code := c, done := true, phase := .idle, outRaces := [] }

/-- Command acceptance (42_pipeline.md R86): latch the fields, clear `DONE` and `CODE`, enter CHECK. It is also all
there is of a return from an error (60_exceptions.md R110). -/
def acceptCommand (c : CmdWord) (s : State) : State :=
  { s with
    cmdW := cmdFieldW c, cmdH := cmdFieldH c, cmdCh := cmdFieldCh c
    done := false, code := .ok, phase := .check }

/-- `PHASE <- CAPTURE`, on which "`CAP_REQ` becomes 1" (42_pipeline.md R88, R94). -/
def requestCapture (s : State) : State :=
  { s with phase := .capture, capReq := true }

/-- A capture is answered: the answer is taken, `CAP_REQ` becomes 0 (42_pipeline.md R94) and `RAW` holds what the
answer says it holds (R87). -/
def endCapture (a : CapAnswer) (s : State) : State :=
  { s.fillRaw a.frame.at with capReq := false, capDone := none }

/-- `PHASE <- CONVERT` once the capture is answered (42_pipeline.md R89, R90). -/
def enterConvert (a : CapAnswer) (s : State) : State :=
  { endCapture a s with phase := .convert }

/-- The move at the head of `inputs` is taken. -/
def State.withInputs (s : State) (rest : List Input) : State :=
  { s with inputs := rest }

/-- The FrameSource presents its answer to the controller (42_pipeline.md R87). -/
def State.presentAnswer (s : State) (a : CapAnswer) : State :=
  { s with capDone := some a }

/-- The host gets a value back from a read (42_pipeline.md R92, R100). -/
def State.observe (s : State) (o : Observation) : State :=
  { s with observed := o :: s.observed }

/-- One free choice was made; the next is another one (log 24). -/
def State.drawn (s : State) : State :=
  { s with draws := s.draws + 1 }

end Sys2Proof.Machine
end

