-- ==== Sys2Proof/Machine/Flags.lean ====
section
/-! DEFINITION. The status flags as the host reads them (10_state.md R16, R18) and the numeric codes of
30_encoding.md R52 and R53. No arithmetic operation sets a flag (R16). -/

namespace Sys2Proof.Machine

/-- The value of the register `PHASE` (30_encoding.md R53). -/
def Phase.bits : Phase → PhaseBits
  | .idle => 0b000#3
  | .check => 0b001#3
  | .capture => 0b010#3
  | .convert => 0b011#3
  | .resample => 0b100#3

/-- The phase a register value stands for; none for the values R55 calls unreachable. -/
def phaseOfBits (p : PhaseBits) : Option Phase :=
  if p = 0#3 then some .idle
  else if p = 1#3 then some .check
  else if p = 2#3 then some .capture
  else if p = 3#3 then some .convert
  else if p = 4#3 then some .resample
  else none

/-- The number of a status (30_encoding.md R52). -/
def Code.bits : Code → CodeBits
  | .ok => 0#2
  | .captureFailure => 1#2
  | .unsupportedResolution => 2#2

/-- `BUSY` = (`PHASE != 0`) (10_state.md R16). -/
def State.busy (s : State) : Bool := decide (s.phase.bits ≠ 0#3)

/-- `STATUS` as read: bit 0 `BUSY`, bit 1 `DONE`, bits 3:2 `CODE`, bits 31:4 read as 0 (10_state.md R18). -/
def State.statusWord (s : State) : CmdWord :=
  0#28 ++ s.code.bits ++ BitVec.ofBool s.done ++ BitVec.ofBool s.busy

end Sys2Proof.Machine
end

