-- ==== Sys2Proof/Machine/Operands.lean ====
section
/-! DEFINITION. How the operations find their operands: the channel fields of a pixel (EXTRACT, 40_colorconverter.md
R62), the source coordinate and address of an output coordinate (SX, SY, SA, 41_resampler.md R75, R77), and the latched
request CHECK compares (42_pipeline.md R88), and the register a host access names (20_memory.md R39). The fields of a command word are in Decode.lean. -/

namespace Sys2Proof.Machine

/-- `r5 = p[15:11]` (40_colorconverter.md R62). -/
def red5 (p : Pixel) : BitVec 5 := p.extractLsb' 11 5
/-- `g6 = p[10:5]` (40_colorconverter.md R62). -/
def green6 (p : Pixel) : BitVec 6 := p.extractLsb' 5 6
/-- `b5 = p[4:0]` (40_colorconverter.md R62). -/
def blue5 (p : Pixel) : BitVec 5 := p.extractLsb' 0 5

/-- The general form of the coordinate functions: multiply, then one floor division (41_resampler.md R75, R83). -/
def srcCoord (srcSize outSize d : Nat) : Nat := (d * srcSize) / outSize

/-- `SX(x) = (x * 176) div 32` (41_resampler.md R75). -/
def srcX (x : Nat) : Nat := srcCoord Config.srcW Config.outW x
/-- `SY(y) = (y * 144) div 32` (41_resampler.md R75). -/
def srcY (y : Nat) : Nat := srcCoord Config.srcH Config.outH y

/-- `SA(x, y) = SY(y) * 176 + SX(x)` (41_resampler.md R77). -/
def srcAddr (x y : Nat) : Nat := srcY y * Config.srcW + srcX x

/-- `SA` of the output element `j` = `y * 32 + x` (20_memory.md R34). -/
def srcAddrOf (j : Nat) : Nat := srcAddr (j % Config.outW) (j / Config.outW)

/-- `LUTX` as 41_resampler.md R76 tabulates it. -/
def lutX : List Nat :=
  [0, 5, 11, 16, 22, 27, 33, 38, 44, 49, 55, 60, 66, 71, 77, 82] ++
  [88, 93, 99, 104, 110, 115, 121, 126, 132, 137, 143, 148, 154, 159, 165, 170]

/-- `LUTY` as 41_resampler.md R76 tabulates it. -/
def lutY : List Nat :=
  [0, 4, 9, 13, 18, 22, 27, 31, 36, 40, 45, 49, 54, 58, 63, 67] ++
  [72, 76, 81, 85, 90, 94, 99, 103, 108, 112, 117, 121, 126, 130, 135, 139]

/-- The register a number names: `CMD` 0, `STATUS` 1, and no other (20_memory.md R39). -/
def hostRegOf (n : Nat) : Option HostReg :=
  if n = Config.cmdNumber then some .cmd
  else if n = Config.statusNumber then some .status
  else none

/-- The latched request is the supported one, by exact equality of the three fields (42_pipeline.md R88). -/
def State.requestSupported (s : State) : Bool :=
  decide (s.cmdW.toNat = Config.wantedW) && decide (s.cmdH.toNat = Config.wantedH) &&
    decide (s.cmdCh.toNat = Config.wantedCh)

end Sys2Proof.Machine
end

