-- ==== Sys2Proof/Machine/ColorConverter.lean ====
section
/-! DEFINITION. The ColorConverter: NORMALIZE, WSUM, TRUNC, `LUMA_OF` and the stage operation CONVERT
(40_colorconverter.md). All operands are unsigned, products and sums are exact, divisions truncate (R73). -/

namespace Sys2Proof.Machine

/-- The channels of a pixel after normalisation. -/
structure Channels where
  r8 : Byte
  g8 : Byte
  b8 : Byte
  deriving DecidableEq, Repr

/-- One channel scaled to 0..255: multiply first, then one division that discards the remainder
(40_colorconverter.md R63). -/
def normalizeTo8 (v maxForBits : Nat) : Byte := BitVec.ofNat 8 ((v * 255) / maxForBits)

/-- EXTRACT and NORMALIZE of a pixel (40_colorconverter.md R62, R63). -/
def channelsOf (p : Pixel) : Channels where
  r8 := normalizeTo8 (red5 p).toNat Config.max5
  g8 := normalizeTo8 (green6 p).toNat Config.max6
  b8 := normalizeTo8 (blue5 p).toNat Config.max5

/-- The table `N5` of 40_colorconverter.md R64. -/
def n5Table : List Nat :=
  [0, 8, 16, 24, 32, 41, 49, 57, 65, 74, 82, 90, 98, 106, 115, 123] ++
  [131, 139, 148, 156, 164, 172, 180, 189, 197, 205, 213, 222, 230, 238, 246, 255]

/-- The table `N6` of 40_colorconverter.md R64. -/
def n6Table : List Nat :=
  [0, 4, 8, 12, 16, 20, 24, 28, 32, 36, 40, 44, 48, 52, 56, 60] ++
  [64, 68, 72, 76, 80, 85, 89, 93, 97, 101, 105, 109, 113, 117, 121, 125] ++
  [129, 133, 137, 141, 145, 149, 153, 157, 161, 165, 170, 174, 178, 182, 186, 190] ++
  [194, 198, 202, 206, 210, 214, 218, 222, 226, 230, 234, 238, 242, 246, 250, 255]

/-- One accumulation `ACC <- ACC + weight * channel` at 18 bits (40_colorconverter.md R65). -/
def accumulate (acc : Acc) (weight : Nat) (channel : Byte) : Acc :=
  acc + BitVec.ofNat 18 (weight * channel.toNat)

/-- WSUM: `ACC` cleared, then red, green and blue added in that order (40_colorconverter.md R65). -/
def weightedSum (c : Channels) : Acc :=
  accumulate (accumulate (accumulate 0 Config.weightR c.r8) Config.weightG c.g8) Config.weightB c.b8

/-- TRUNC: `Y = ACC div 1000` (40_colorconverter.md R66). -/
def truncAcc (acc : Acc) : Byte := BitVec.ofNat 8 (acc.toNat / Config.weightDen)

/-- What `ACC` holds at the end of a pixel (40_colorconverter.md R65). -/
def accOf (p : Pixel) : Acc := weightedSum (channelsOf p)

/-- `LUMA_OF`, the composition of EXTRACT, NORMALIZE, WSUM and TRUNC (40_colorconverter.md R68). -/
def lumaOf (p : Pixel) : Byte := truncAcc (accOf p)

/-- What CONVERT leaves (40_colorconverter.md R69): `LUMA[i] <- LUMA_OF(RAW[i])` for every `i` in 0..25343, then
`PHASE <- RESAMPLE`. One function application (20_memory.md R37, log 11). `IDX` and `ACC` hold what the last pixel
left in them (log 12). -/
def State.converted (s : State) : State :=
  { s.fillLuma (fun i => lumaOf (s.rawAt i)) with
    phase := .resample
    idx := BitVec.ofNat 15 (Config.nPix - 1)
    acc := accOf (s.rawAt (Config.nPix - 1)) }

/-- CONVERT (40_colorconverter.md R69). It cannot fail (R70). -/
def execConvert (s : State) : Result :=
  .next s.converted

end Sys2Proof.Machine
end

