-- ==== Sys2Proof/Machine/Resampler.lean ====
section
/-! DEFINITION. The Resampler: COPY and the stage operation RESAMPLE (41_resampler.md R78, R79), and what the running
command will write to an element of `OUT` (20_memory.md R46). -/

namespace Sys2Proof.Machine

/-- COPY: the sample of output element `j`, the luma at its source address, unchanged (41_resampler.md R77, R78). -/
def State.sampleAt (s : State) (j : Nat) : Byte := s.lumaAt (srcAddrOf j)

/-- What RESAMPLE leaves in `OUT[j]`: the sample; where the host wrote `OUT[j]` while this command was running, either
the host's value or the sample (20_memory.md R46, log 3). -/
def State.resampled (s : State) (j : Nat) : Byte :=
  if s.outRaces.contains j && Config.raceChoice s.draws j then s.outAt j else s.sampleAt j

/-- What the loops of RESAMPLE leave (41_resampler.md R79): every element of `OUT` is written. One function application
(20_memory.md R37, log 11). `XO` and `YO` hold the last coordinate (log 12). -/
def State.sampled (s : State) : State :=
  { (s.fillOut s.resampled).drawn with
    xo := BitVec.ofNat 5 (Config.outW - 1)
    yo := BitVec.ofNat 5 (Config.outH - 1) }

/-- RESAMPLE (41_resampler.md R79), which ends the command with `complete(OK)` (42_pipeline.md R91). -/
def execResample (s : State) : Result :=
  .next (complete .ok s.sampled)

/-- The moves left after the controller's next turn; none where a reset comes first. With no move left the controller
has its turn (log 14). -/
def turnAhead : List Input → Option (List Input)
  | [] => some []
  | e :: rest =>
    match e with
    | .turn => some rest
    | .reset => none
    | .regWrite _ _ => turnAhead rest
    | .regRead _ => turnAhead rest
    | .outRead _ => turnAhead rest
    | .outWrite _ _ => turnAhead rest
    | .rawWrite _ _ => turnAhead rest
    | .capDone _ => turnAhead rest

/-- The FrameSource's next answer and the moves left after it; none where it never answers (42_pipeline.md R96) or a reset
comes first. -/
def answerAhead : List Input → Option (CapAnswer × List Input)
  | [] => none
  | e :: rest =>
    match e with
    | .capDone a => some (a, rest)
    | .reset => none
    | .turn => answerAhead rest
    | .regWrite _ _ => answerAhead rest
    | .regRead _ => answerAhead rest
    | .outRead _ => answerAhead rest
    | .outWrite _ _ => answerAhead rest
    | .rawWrite _ _ => answerAhead rest

/-- What a command in CAPTURE with the moves `moves` to come will write to `OUT[j]`: the luma of the frame it will be
given, if its capture will end well and its CONVERT will not be cut short. -/
def captureWrites (legacyUnchecked : Bool) (j : Nat) (moves : List Input) : Option Byte :=
  match answerAhead moves with
  | none => none
  | some (a, rest) =>
    if legacyUnchecked || a.capOk then (turnAhead rest).map fun _ => lumaOf (a.frame.at (srcAddrOf j)) else none

/-- "the value the command writes" to `OUT[j]`, seen from the middle of the command (20_memory.md R46); none where the
command will write nothing. Before the capture is over it is settled by the moves still to come, which State holds, so
that a read this early gets exactly what the command goes on to write (log 22). -/
def State.willWrite (s : State) (j : Nat) : Option Byte :=
  match s.phase with
  | .idle => none
  | .check =>
    if s.legacyUnchecked || s.requestSupported then
      match turnAhead s.inputs with
      | none => none
      | some moves => captureWrites s.legacyUnchecked j moves
    else none
  | .capture => captureWrites s.legacyUnchecked j s.inputs
  | .convert => (turnAhead s.inputs).map fun _ => lumaOf (s.rawAt (srcAddrOf j))
  | .resample => some (s.sampleAt j)

/-- The second value a raced read of `OUT[j]` may return: what the command writes, or, where it writes nothing, what the
element holds (20_memory.md R46). -/
def State.commandByte (s : State) (j : Nat) : Byte := (s.willWrite j).getD (s.outAt j)

end Sys2Proof.Machine
end

