-- ==== Sys2Proof/Machine/Pipeline.lean ====
section
/-! DEFINITION. The Pipeline controller: GETIMAGE, CHECK and CAPTURE (42_pipeline.md R86, R88, R89), in both settings of
`LEGACY_UNCHECKED` (R99), and the driver's mapping of a call to a command (30_encoding.md R58). -/

namespace Sys2Proof.Machine

/-- What the driver does with a GetImage call (30_encoding.md R58). -/
inductive DriverAction where
  /-- Write this word to `CMD`. -/
  | writeCmd (c : CmdWord)
  /-- Answer the caller without writing `CMD`. -/
  | answer (c : Code)
  deriving DecidableEq, Repr

/-- The command word of a request whose three numbers fit their fields; none otherwise, never a truncated word
(30_encoding.md R57, R58). -/
def requestWord (w h ch : Nat) : Option CmdWord :=
  if w ≤ 4095 ∧ h ≤ 4095 ∧ ch ≤ 255 then some (packCmd w h ch) else none

/-- The driver: `reporter` is dropped, `image_data` is bound to the `OUT` port, a number that is negative or does not
fit its field is answered UnsupportedResolution "itself without writing `CMD`" (30_encoding.md R58). -/
def driverGetImage (w h ch : Int) : DriverAction :=
  if w < 0 ∨ h < 0 ∨ ch < 0 then .answer .unsupportedResolution
  else
    match requestWord w.toNat h.toNat ch.toNat with
    | some c => .writeCmd c
    | none => .answer .unsupportedResolution

/-- GETIMAGE: the host's write of `CMD` (42_pipeline.md R86). In IDLE the command is accepted; in any other phase "the
write is ignored" (10_state.md R17, 42_pipeline.md R94; whether the host can make it, log 2). Numbers no word can hold are never written
(30_encoding.md R58; log 17). -/
def execGetimage (w h ch : Nat) (s : State) : Result :=
  match requestWord w h ch with
  | none => .refused .unrepresentableRequest
  | some c =>
    match s.phase with
    | .idle => .next (acceptCommand c s)
    | .check => .next s
    | .capture => .next s
    | .convert => .next s
    | .resample => .next s

/-- CHECK (42_pipeline.md R88): the supported request goes on to CAPTURE, any other ends the command with
UnsupportedResolution. With `LEGACY_UNCHECKED` it always passes (R99). -/
def execCheck (s : State) : Result :=
  if s.legacyUnchecked || s.requestSupported then .next (requestCapture s)
  else .next (complete .unsupportedResolution s)

/-- CAPTURE (42_pipeline.md R89): wait for the FrameSource's answer, for ever if there is none (R96); then go on to
CONVERT, or end the command with CaptureFailure. With `LEGACY_UNCHECKED` the bit `CAP_OK` is not looked at (R99). -/
def execCapture (s : State) : Result :=
  match s.capDone with
  | none => .next s
  | some a =>
    if s.legacyUnchecked || a.capOk then .next (enterConvert a s)
    else .next (complete .captureFailure (endCapture a s))

end Sys2Proof.Machine
end

