-- ==== Sys2Proof/Machine/Environment.lean ====
section
/-! DEFINITION. The moves of the host and of the FrameSource that are not the write of `CMD` (10_state.md R30,
42_pipeline.md R85, R87, R100) and the reset input (70_reset_and_hazards.md R117, R119). -/

namespace Sys2Proof.Machine

/-- Host read of `STATUS`: no side effect on the block (10_state.md R18). -/
def readStatus (s : State) : Result :=
  .next (s.observe (.status s.statusWord))

/-- Host write of `STATUS`: ignored (10_state.md R18). -/
def writeStatus (_v : CmdWord) (s : State) : Result :=
  .next s

/-- The hardware's answer to a host read of the write-only register `CMD`: it returns `any` (10_state.md R17, log 4). -/
def readCmd (s : State) : Result :=
  .next (s.observe (.cmd (Config.cmdReadValue s.draws))).drawn

/-- Host read of `CMD`: "the model should refuse the read" (10_state.md R17), unless the model is asked for the hardware's
own answer (log 4). -/
def readOfCmd (s : State) : Result :=
  if s.cmdMisuseRefused then .refused .readOfCmd else readCmd s

/-- Host access to a register number that 20_memory.md R39 does not give (log 29). -/
def noSuchReg (n : Nat) (_s : State) : Result :=
  .fault (.noSuchRegister n)

/-- Host read of the register with number `n` (20_memory.md R39). -/
def readRegister (n : Nat) (s : State) : Result :=
  match hostRegOf n with
  | some .cmd => readOfCmd s
  | some .status => readStatus s
  | none => noSuchReg n s

/-- Host read of `OUT[i]`. In IDLE the host reads its own memory (20_memory.md R41). While BUSY it is a race that
"returns either the element's value before the command or the value the command writes to it" (R46, log 3). DESIGN CHOICE
(log 28): R46 does not say what a read returns after the host itself wrote the element during the same command; the first
of the two values is then the host's own, and the value before the command is not returned. -/
def readOut (i : Nat) (s : State) : Result :=
  if i < Config.nOut then
    if s.busy then
      .next (s.observe (.out i (if Config.raceChoice s.draws i then s.outAt i else s.commandByte i))).drawn
    else .next (s.observe (.out i (s.outAt i)))
  else .fault (.noSuchElement .out i)

/-- Host write of `OUT[i]`. While BUSY the index is remembered, since the element may end with the host's value or with
the command's (20_memory.md R46, log 3). -/
def writeOut (i : Nat) (v : Byte) (s : State) : Result :=
  if i < Config.nOut then
    if s.busy then .next (s.putOutRaced i v)
    else .next (s.putOut i v)
  else .fault (.noSuchElement .out i)

/-- FrameSource write of `RAW[i]`, which it may do "only between `CAP_REQ` rising and its own `CAP_DONE`"
(70_reset_and_hazards.md R125; log 15). -/
def writeRaw (i : Nat) (v : Pixel) (s : State) : Result :=
  if s.capReq then
    if i < Config.nPix then .next (s.putRaw i v) else .fault (.noSuchElement .raw i)
  else .refused .frameSourceOutsideCapture

/-- `RAW`, `LUMA` and `OUT` after a reset that finds the block in state `s` (10_state.md R28,
70_reset_and_hazards.md R119). `RAW` is unspecified. `LUMA` is unspecified, but a reset that hits CONVERT leaves each
element old or converted. `OUT` is untouched, but a reset that hits RESAMPLE leaves each element old or sampled
(log 7, 10). -/
def memAfterReset (s : State) : Memory where
  raw := []
  luma :=
    if s.phase = .convert then
      fillCells Config.nPix fun i => if Config.raceChoice s.draws i then lumaOf (s.rawAt i) else s.lumaAt i
    else []
  out :=
    if s.phase = .resample then
      fillCells Config.nOut fun j => if Config.raceChoice s.draws j then s.sampleAt j else s.outAt j
    else s.mem.out

/-- What the reset input leaves (70_reset_and_hazards.md R117, R119): every register as `State.reset` has it, whatever
the phase was; a running command never completes. The parameters, what the surroundings do next and what the host has
read are not the block's and stay (log 9). -/
def State.afterReset (s : State) : State :=
  { State.reset with
    mem := memAfterReset s
    legacyUnchecked := s.legacyUnchecked
    cmdMisuseRefused := s.cmdMisuseRefused
    inputs := s.inputs
    observed := s.observed
    epoch := s.epoch + 1
    draws := s.draws + 1 }

/-- The reset input, accepted in every phase (42_pipeline.md R94). -/
def applyReset (s : State) : Result :=
  .next s.afterReset

end Sys2Proof.Machine
end

