-- ==== Sys2Proof/Machine/Dispatch.lean ====
section
/-! DEFINITION. One arm per operation (spec/opcode_table.json). -/

namespace Sys2Proof.Machine

def exec (i : Instr) (s : State) : Host.Outcome State Fault Refusal :=
  match i with
  | .getimage w h ch => Sys2Proof.Machine.execGetimage w h ch s
  | .check => Sys2Proof.Machine.execCheck s
  | .capture => Sys2Proof.Machine.execCapture s
  | .convert => Sys2Proof.Machine.execConvert s
  | .resample => Sys2Proof.Machine.execResample s

end Sys2Proof.Machine
end

