-- ==== Sys2Proof/Machine/Moves.lean ====
section
/-! DEFINITION. What one move does: the operation some bits select, the controller's turn, and the moves of the
surroundings (log 14). -/

namespace Sys2Proof.Machine

/-- Execute the operation some bits select. Bits that select none leave the block as it is: that is IDLE, where
"anything else" than a `CMD` write changes nothing (42_pipeline.md R94). -/
def runOpWord (f : OpWord) (s : State) : Host.Outcome State Fault Refusal :=
  match decode f with
  | .ok i => exec i s
  | .error _ => .next s

/-- The controller's turn: the operation `PHASE` selects (30_encoding.md R53, 10_state.md R15; log 26). -/
def controllerTurn (s : State) : Host.Outcome State Fault Refusal :=
  runOpWord (.phase s.phase.bits) s

/-- Host write of `CMD`: one GetImage call (10_state.md R17). While BUSY the host has no such move: it is refused
(60_exceptions.md R116, 70_reset_and_hazards.md R122), unless the model is asked for the hardware's own answer to it, which
is to run GETIMAGE and ignore the write (R17, 42_pipeline.md R86; log 2). -/
def writeCmd (c : CmdWord) (s : State) : Host.Outcome State Fault Refusal :=
  if s.busy && s.cmdMisuseRefused then .refused .commandWhileBusy else runOpWord (.cmd c) s

/-- Host write of the register with number `n` (20_memory.md R39): a word written to `CMD` is an operation, a write of
`STATUS` is ignored (10_state.md R17, R18). -/
def writeRegister (n : Nat) (v : CmdWord) (s : State) : Host.Outcome State Fault Refusal :=
  match hostRegOf n with
  | some .cmd => writeCmd v s
  | some .status => writeStatus v s
  | none => noSuchReg n s

/-- One move, already taken off `inputs`. A `CAP_DONE` when `CAP_REQ` = 0 "is ignored" (42_pipeline.md R87; log 27). -/
def applyInput (e : Input) (s : State) : Host.Outcome State Fault Refusal :=
  match e with
  | .turn => controllerTurn s
  | .regWrite n v => writeRegister n v s
  | .regRead n => readRegister n s
  | .outRead i => readOut i s
  | .outWrite i v => writeOut i v s
  | .reset => applyReset s
  | .rawWrite i v => writeRaw i v s
  | .capDone a => if s.capReq then controllerTurn (s.presentAnswer a) else .next s

end Sys2Proof.Machine
end

