-- ==== Sys2Proof/Machine/Step.lean ====
section
/-! DEFINITION. One step: the next move of the surroundings, or the controller's turn (log 14). -/

namespace Sys2Proof.Machine

/-- One step of the machine. With no move left the controller has its turn: it finishes the stages that wait for
nothing, and waits in IDLE and in CAPTURE (42_pipeline.md R94, R96). -/
def step (s : State) : Host.Outcome State Fault Refusal :=
  match s.inputs with
  | [] => controllerTurn s
  | e :: rest => applyInput e (s.withInputs rest)

/-- `s` with one operation where `step` takes its next one: a command word is the host's next write of `CMD`; a stage
operation is selected by `PHASE` (with `CAP_REQ` as 10_state.md R20 has it in that phase) and the controller has its
turn (log 14, 16). A command word in a running command is placed so that the step runs it (log 2); in IDLE nothing but the
move changes. Bits of no operation change nothing. -/
def State.withFetchWord (s : State) (nbits w : Nat) : State :=
  match opWordOfTable nbits w with
  | .ok (.cmd c) => { s with
      inputs := .cmdWrite c :: s.inputs
      cmdMisuseRefused := s.cmdMisuseRefused && !s.busy }
  | .ok (.phase p) =>
    match phaseOfBits p with
    | some ph => { s with phase := ph, capReq := decide (ph = .capture), inputs := .turn :: s.inputs }
    | none => s
  | .error _ => s

end Sys2Proof.Machine
end

