-- ==== Sys2Proof/Safety.lean ====
section
/-! DEFINITION. The terms claims are stated in: the invariant of the machine, the edges of the controller's table, which
moves keep the surroundings' contract, runs of several steps, and the inputs of one whole command. -/

namespace Sys2Proof.Machine

/-- What every step keeps: the clauses of 10_state.md R29 that a state can break, and the same for the model's own
fields. (R29 (a) and `CODE != 3` hold by type; R29 (b) defines `BUSY`.) -/
structure State.Inv (s : State) : Prop where
  /-- The buffers are in canonical form. -/
  mem_wf : s.mem.wf = true
  /-- R29 (e): `CAP_REQ == (PHASE == 2)`. -/
  capReq_iff : s.capReq = decide (s.phase = .capture)
  /-- R29 (c): `DONE == 1` implies `PHASE == 0`. -/
  done_idle : s.done = true → s.phase = .idle
  /-- R29 (d): `DONE == 0` implies `CODE == 0`. -/
  code_ok : s.done = false → s.code = .ok
  /-- No answer outlives the step that presents it. -/
  no_answer : s.capDone = none
  /-- No race on `OUT` outlives its command. -/
  idle_no_races : s.phase = .idle → s.outRaces = []
  /-- Every raced index is an index of `OUT`. -/
  races_lt : ∀ i ∈ s.outRaces, i < Config.nOut

/-- The edges between different phases in the controller's table (42_pipeline.md R94), reset apart. -/
def PhaseEdge : Phase → Phase → Bool
  | .idle, .check => true
  | .check, .capture => true
  | .check, .idle => true
  | .capture, .convert => true
  | .capture, .idle => true
  | .convert, .resample => true
  | .resample, .idle => true
  | _, _ => false

/-- Moves that keep the contracts of the host (10_state.md R30, 42_pipeline.md R100, 70_reset_and_hazards.md R122, R123)
and of the FrameSource (R125). -/
def Input.allowed (s : State) : Input → Bool
  | .turn => true
  | .regWrite n _ => decide (n = Config.cmdNumber) && !s.busy
  | .regRead n => decide (n = Config.statusNumber)
  | .outRead i => !s.busy && decide (i < Config.nOut)
  | .outWrite i _ => !s.busy && decide (i < Config.nOut)
  | .reset => true
  | .rawWrite i _ => s.capReq && decide (i < Config.nPix)
  | .capDone _ => s.capReq

/-- The next move of the surroundings, if there is one, keeps their contract. -/
def State.contractKept (s : State) : Bool :=
  match s.inputs with
  | [] => true
  | e :: _ => e.allowed s

/-- Moves that can end a capture: an answer, or reset (42_pipeline.md R96). -/
def Input.endsCapture : Input → Bool
  | .capDone _ => true
  | .reset => true
  | .turn => false
  | .regWrite _ _ => false
  | .regRead _ => false
  | .outRead _ => false
  | .outWrite _ _ => false
  | .rawWrite _ _ => false

/-- Host moves that, in a running command, neither stop nor touch a buffer: an access to one of the two registers, a read
of an element of `OUT` (42_pipeline.md R92, R100: the host polls). A write or a read of `CMD` is one only where
it is not `refused` (log 2, 4). -/
def Input.quiet (refused : Bool) : Input → Bool
  | .regWrite n _ => (hostRegOf n).isSome && !(refused && decide (n = Config.cmdNumber))
  | .regRead n => (hostRegOf n).isSome && !(refused && decide (n = Config.cmdNumber))
  | .outRead i => decide (i < Config.nOut)
  | .turn => false
  | .outWrite _ _ => false
  | .reset => false
  | .rawWrite _ _ => false
  | .capDone _ => false

/-- Moves that can happen while a capture waits, without ending it, stopping or touching `OUT`: a turn, a write of an
element of `RAW` by the FrameSource (42_pipeline.md R87), a quiet move. -/
def Input.waits (refused : Bool) : Input → Bool
  | .turn => true
  | .rawWrite i _ => decide (i < Config.nPix)
  | .regWrite n v => (Input.regWrite n v).quiet refused
  | .regRead n => (Input.regRead n).quiet refused
  | .outRead i => (Input.outRead i).quiet refused
  | .outWrite _ _ => false
  | .reset => false
  | .capDone _ => false

/-- `t` is reached from `s` in exactly `n` steps. -/
def stepsTo : Nat → State → State → Prop
  | 0, s, t => s = t
  | n + 1, s, t => ∃ u, step s = .next u ∧ stepsTo n u t

/-- The moves of one command that reaches CAPTURE, up to the FrameSource's answer: the write of `CMD`, moves `q` of the
host, the turn that runs CHECK, moves `w` while the capture waits, the answer (95_test_vectors.md programs P1, P3). -/
def captureScript (c : CmdWord) (q w : List Input) (a : CapAnswer) : List Input :=
  .cmdWrite c :: (q ++ .turn :: (w ++ [.capDone a]))

/-- The moves of one command that runs all four stages: then the turns that run CONVERT and RESAMPLE, each after moves of
the host. -/
def commandScript (c : CmdWord) (q w : List Input) (a : CapAnswer) (q₁ q₂ : List Input) : List Input :=
  captureScript c q w a ++ (q₁ ++ .turn :: (q₂ ++ [.turn]))

end Sys2Proof.Machine
end

