-- ==== Sys2Proof/Certificates/Slice0/Obligations.lean ====
section
/-! DEFINITION. The statements for the provers. Each says in its docstring which rule of spec/ it formalises, or that it
rests on a rule the spec marks as derived or on a choice of this model (log <n>). The fields `outRaces`, `capDone`,
`inputs`, `observed`, `draws` and `epoch` are the model's own (INVENTORY.md, State). -/

open Sys2Proof Sys2Proof.Machine

/-! ### Encoding -/

/-- 30_encoding.md R53: the eight values of `PHASE3`, the codes of the five phases, and that the value of `PHASE` selects
the stage operation the controller executes. -/
def Obligations.PhaseValueSelectsTheOperation : Prop :=
  decode (.phase 0b000#3) = .error .idleSelectsNothing ∧
  decode (.phase 0b001#3) = .ok .check ∧
  decode (.phase 0b010#3) = .ok .capture ∧
  decode (.phase 0b011#3) = .ok .convert ∧
  decode (.phase 0b100#3) = .ok .resample ∧
  decode (.phase 0b101#3) = .error .reservedPhase ∧
  decode (.phase 0b110#3) = .error .reservedPhase ∧
  decode (.phase 0b111#3) = .error .reservedPhase ∧
  Phase.idle.bits = 0#3 ∧ Phase.check.bits = 1#3 ∧ Phase.capture.bits = 2#3 ∧
  Phase.convert.bits = 3#3 ∧ Phase.resample.bits = 4#3 ∧
  ∀ (s : State) (i : Instr), decode (.phase s.phase.bits) = .ok i → controllerTurn s = exec i s

/-- 30_encoding.md R50: the fields of a command word; every word is a GETIMAGE; one word asks for the supported size, and
each other word, written in IDLE, completes with UnsupportedResolution (in the normative setting, 00_scope.md R9). -/
def Obligations.EveryCommandWordIsGetimage : Prop :=
  ∀ c : CmdWord,
    decode (.cmd c) = .ok (.getimage (c.toNat % 4096) (c.toNat / 4096 % 4096) (c.toNat / 16777216)) ∧
    ((c.toNat % 4096 = 32 ∧ c.toNat / 4096 % 4096 = 32 ∧ c.toNat / 16777216 = 1) ↔ c = 0x01020020#32) ∧
    (c ≠ 0x01020020#32 → ∀ (s : State) (rest : List Input), s.phase = .idle → s.legacyUnchecked = false →
      s.inputs = .cmdWrite c :: .turn :: rest →
      ∃ t, stepsTo 2 s t ∧ t.phase = .idle ∧ t.done = true ∧ t.code = .unsupportedResolution)

/-- 30_encoding.md sections 1 to 4: an encoded well-formed instruction decodes to itself, with every operand at every
value R57 admits. -/
def Obligations.DecodeOfEncodeIsTheInstruction : Prop :=
  ∀ i : Instr, i.wellFormed = true → decode (encode i) = .ok i

/-- 30_encoding.md sections 1 to 5: bits that decode have one meaning: the instruction they decode to is well formed and
encodes to exactly those bits. -/
def Obligations.EncodeOfDecodeIsTheWord : Prop :=
  ∀ (f : OpWord) (i : Instr), decode f = .ok i → i.wellFormed = true ∧ encode i = f

/-- Words of spec/opcode_table.json and of 95_test_vectors.md V-PL-1 (30_encoding.md R50, R53; the reading of a row's
bits is log 16). -/
def Obligations.TableWordsDecode : Prop :=
  decodeTableWord 32 0x01020020 = some (.getimage 32 32 1) ∧
  decodeTableWord 32 0x01020040 = some (.getimage 64 32 1) ∧
  decodeTableWord 32 0x0101F020 = some (.getimage 32 31 1) ∧
  decodeTableWord 32 0x20020001 = some (.getimage 1 32 32) ∧
  decodeTableWord 32 0xFFFFFFFF = some (.getimage 4095 4095 255) ∧
  decodeTableWord 8 0x1 = some .check ∧
  decodeTableWord 8 0x2 = some .capture ∧
  decodeTableWord 8 0x3 = some .convert ∧
  decodeTableWord 8 0x4 = some .resample ∧
  decodeTableWord 8 0x0 = none ∧ decodeTableWord 8 0x5 = none ∧ decodeTableWord 8 0x9 = none

/-- 30_encoding.md R58: the driver writes a word whose fields are the three numbers when all fit; any other request it
answers UnsupportedResolution itself, and it never truncates. (`reporter` and `image_data` have no field.) -/
def Obligations.DriverNeverTruncates : Prop :=
  ∀ w h ch : Int,
    ((0 ≤ w ∧ w ≤ 4095 ∧ 0 ≤ h ∧ h ≤ 4095 ∧ 0 ≤ ch ∧ ch ≤ 255) →
      ∃ c, driverGetImage w h ch = .writeCmd c ∧
        ((c.toNat % 4096 : Nat) : Int) = w ∧ ((c.toNat / 4096 % 4096 : Nat) : Int) = h ∧
        ((c.toNat / 16777216 : Nat) : Int) = ch) ∧
    (¬ (0 ≤ w ∧ w ≤ 4095 ∧ 0 ≤ h ∧ h ≤ 4095 ∧ 0 ≤ ch ∧ ch ≤ 255) →
      driverGetImage w h ch = .answer .unsupportedResolution)

/-- A GETIMAGE whose numbers fit no word stops with a refusal of its own name, the model's choice (log 17) for what
30_encoding.md section 7 forbids the driver to write. -/
def Obligations.UnrepresentableRequestIsRefused : Prop :=
  ∀ (s : State) (w h ch : Nat), (w > 4095 ∨ h > 4095 ∨ ch > 255) →
    exec (.getimage w h ch) s = .refused .unrepresentableRequest

/-! ### The commands -/

/-- 42_pipeline.md R86: acceptance in IDLE, with everything it leaves unchanged; in any other phase nothing happens. -/
def Obligations.GetimageLatchesTheRequestInIdle : Prop :=
  ∀ (s : State) (w h ch : Nat), w ≤ 4095 → h ≤ 4095 → ch ≤ 255 →
    (s.phase = .idle →
      exec (.getimage w h ch) s = .next { s with
        cmdW := BitVec.ofNat 12 w, cmdH := BitVec.ofNat 12 h, cmdCh := BitVec.ofNat 8 ch,
        done := false, code := .ok, phase := .check }) ∧
    (s.phase ≠ .idle → exec (.getimage w h ch) s = .next s)

/-- 10_state.md section 4 and 42_pipeline.md section 2, as a step: the host's write of register 0, `CMD`, latches the
word's fields in IDLE, after which `STATUS` reads 1; while BUSY the move is refused, as 60_exceptions.md section 7 asks of a model, or,
where the model is set to the hardware's answer, the write is lost (log 2). -/
def Obligations.CommandWriteStepsIntoCheck : Prop :=
  ∀ (s : State) (c : CmdWord) (rest : List Input), s.inputs = .regWrite 0 c :: rest →
    (s.phase = .idle →
      ∃ t, step s = .next t ∧ t.statusWord = 1#32 ∧
        t = { s with
          inputs := rest
          cmdW := BitVec.ofNat 12 (c.toNat % 4096)
          cmdH := BitVec.ofNat 12 (c.toNat / 4096 % 4096)
          cmdCh := BitVec.ofNat 8 (c.toNat / 16777216)
          done := false, code := .ok, phase := .check }) ∧
    (s.phase ≠ .idle → s.cmdMisuseRefused = true → step s = .refused .commandWhileBusy) ∧
    (s.phase ≠ .idle → s.cmdMisuseRefused = false → step s = .next { s with inputs := rest })

/-- 42_pipeline.md R88 (normative setting): CHECK, with everything it leaves unchanged (`outRaces`, the model's, ends with
the command). -/
def Obligations.CheckComparesTheLatches : Prop :=
  decode (.phase 0b001#3) = .ok .check ∧
  ∀ s : State, s.legacyUnchecked = false →
    exec .check s = .next
      (if s.cmdW = 32#12 ∧ s.cmdH = 32#12 ∧ s.cmdCh = 1#8 then { s with phase := .capture, capReq := true }
       else { s with code := .unsupportedResolution, done := true, phase := .idle, outRaces := [] })

/-- 42_pipeline.md R89 (normative setting), with the contents of `RAW` R87 gives: CAPTURE waits while there is no answer,
goes on to CONVERT when the answer is a frame, and ends the command with CaptureFailure when it is none; what it leaves
unchanged. -/
def Obligations.CaptureFollowsTheAnswer : Prop :=
  decode (.phase 0b010#3) = .ok .capture ∧
  ∀ s : State, s.legacyUnchecked = false →
    (s.capDone = none → exec .capture s = .next s) ∧
    (∀ a, s.capDone = some a → a.capOk = true →
      ∃ t, exec .capture s = .next t ∧
        { t with mem := s.mem } = { s with phase := .convert, capReq := false, capDone := none } ∧
        (∀ i, i < 25344 → t.rawAt i = a.frame.at i) ∧
        (∀ i, t.lumaAt i = s.lumaAt i) ∧ (∀ j, t.outAt j = s.outAt j)) ∧
    (∀ a, s.capDone = some a → a.capOk = false →
      ∃ t, exec .capture s = .next t ∧
        { t with mem := s.mem } = { s with
          code := .captureFailure, done := true, phase := .idle, capReq := false, capDone := none, outRaces := [] } ∧
        (∀ i, i < 25344 → t.rawAt i = a.frame.at i) ∧
        (∀ i, t.lumaAt i = s.lumaAt i) ∧ (∀ j, t.outAt j = s.outAt j))

/-- 40_colorconverter.md R69: CONVERT, with everything it leaves unchanged. Its working registers `IDX` and `ACC`
(10_state.md R21) are apart, in `WorkingRegistersHoldTheLastElement`. -/
def Obligations.ConvertWritesEveryLuma : Prop :=
  decode (.phase 0b011#3) = .ok .convert ∧
  ∀ s : State, ∃ t, exec .convert s = .next t ∧
    (∀ i, i < 25344 → t.lumaAt i = lumaOf (s.rawAt i)) ∧
    (∀ i, t.rawAt i = s.rawAt i) ∧ (∀ j, t.outAt j = s.outAt j) ∧
    { t with mem := s.mem, idx := s.idx, acc := s.acc } = { s with phase := .resample }

/-- 41_resampler.md R79: RESAMPLE of a command during which the host left `OUT` alone (R123), with everything it leaves
unchanged. Its working registers `XO` and `YO` are apart; `draws` is the model's counter. The other commands are in
`OutRacesHaveBothOutcomes`. -/
def Obligations.ResampleWritesEveryOutput : Prop :=
  decode (.phase 0b100#3) = .ok .resample ∧
  ∀ s : State, s.outRaces = [] → ∃ t, exec .resample s = .next t ∧
    (∀ x y, x < 32 → y < 32 → ∃ lx ly, lutX[x]? = some lx ∧ lutY[y]? = some ly ∧
      t.outAt (y * 32 + x) = s.lumaAt (ly * 176 + lx)) ∧
    (∀ j, 1024 ≤ j → s.mem.wf = true → t.outAt j = s.outAt j) ∧
    (∀ i, t.rawAt i = s.rawAt i) ∧ (∀ i, t.lumaAt i = s.lumaAt i) ∧
    { t with mem := s.mem, xo := s.xo, yo := s.yo, draws := s.draws } =
      { s with code := .ok, done := true, phase := .idle }

/-- 20_memory.md section 8 (log 3, 22, 28): a host read of `OUT` while BUSY gets what the element holds or what the
command writes to it, if it writes; a host write while BUSY puts the host's value; RESAMPLE leaves a raced element with
that or with its own value, and samples every other; nothing else of the block is affected, its status included. Which of
the two values it is, is a free choice: this says that it is one of them, and no statement can say that each occurs. The
last clause says that the value a read may get early, `State.willWrite`, is what the command goes on to write: no step of
the command changes it, and it is what the command leaves where it ends. -/
def Obligations.RacedOutAccessesGiveOneOfTwoValues : Prop :=
  ∀ s : State,
    (∀ i rest, s.inputs = .outRead i :: rest → s.phase ≠ .idle → i < 1024 →
      ∃ v, (v = s.outAt i ∨ (s.withInputs rest).willWrite i = some v) ∧
        step s = .next { s with inputs := rest, observed := .out i v :: s.observed, draws := s.draws + 1 }) ∧
    (∀ i v rest, s.inputs = .outWrite i v :: rest → s.phase ≠ .idle → i < 1024 →
      ∃ t, step s = .next t ∧ t.outAt i = v ∧ (∀ j, j ≠ i → t.outAt j = s.outAt j) ∧
        (∀ k, t.rawAt k = s.rawAt k) ∧ (∀ k, t.lumaAt k = s.lumaAt k) ∧
        { t with mem := s.mem } = { s with inputs := rest, outRaces := i :: s.outRaces }) ∧
    (∃ t, exec .resample s = .next t ∧
      (∀ j, j < 1024 → t.outAt j = s.lumaAt (srcAddrOf j) ∨ (j ∈ s.outRaces ∧ t.outAt j = s.outAt j)) ∧
      (∀ i, t.rawAt i = s.rawAt i) ∧ (∀ i, t.lumaAt i = s.lumaAt i) ∧
      { t with mem := s.mem, xo := s.xo, yo := s.yo, draws := s.draws } =
        { s with code := .ok, done := true, phase := .idle, outRaces := [] }) ∧
    (s.Inv → s.phase ≠ .idle → s.inputs.head? ≠ some .reset → ∀ t j, step s = .next t → j < 1024 →
      (t.phase ≠ .idle → t.willWrite j = s.willWrite j) ∧
      (t.phase = .idle →
        (s.willWrite j = none ∧ t.outAt j = s.outAt j) ∨ s.willWrite j = some (t.outAt j) ∨
          (j ∈ s.outRaces ∧ t.outAt j = s.outAt j)))

/-- The working registers after a stage: the last element's, read from the loops of 40_colorconverter.md sections 2 and 3
and 41_resampler.md section 3 (log 12, DEDUCED: the model's choice, no rule states it). -/
def Obligations.WorkingRegistersHoldTheLastElement : Prop :=
  ∀ s : State,
    (∃ t, exec .convert s = .next t ∧ t.idx = 25343#15 ∧ t.acc = accOf (s.rawAt 25343)) ∧
    (∃ t, exec .resample s = .next t ∧ t.xo = 31#5 ∧ t.yo = 31#5)

/-- 60_exceptions.md R105 and 30_encoding.md R55: no well-formed instruction ends in a fault or a refusal, in any
state. -/
def Obligations.WellFormedInstructionsComplete : Prop :=
  ∀ (i : Instr) (s : State), i.wellFormed = true → ∃ t, exec i s = .next t

/-- 42_pipeline.md R99: with `LEGACY_UNCHECKED` CHECK always takes the passing branch and CAPTURE goes to CONVERT whatever
`CAP_OK` is. -/
def Obligations.LegacyUncheckedAlwaysGoesOn : Prop :=
  ∀ s : State, s.legacyUnchecked = true →
    exec .check s = .next { s with phase := .capture, capReq := true } ∧
    (s.capDone = none → exec .capture s = .next s) ∧
    (∀ a, s.capDone = some a → ∃ t, exec .capture s = .next t ∧
      { t with mem := s.mem } = { s with phase := .convert, capReq := false, capDone := none } ∧
      (∀ i, i < 25344 → t.rawAt i = a.frame.at i) ∧
      (∀ i, t.lumaAt i = s.lumaAt i) ∧ (∀ j, t.outAt j = s.outAt j))

/-! ### The ColorConverter -/

/-- 40_colorconverter.md R62: the three fields by the masks and shifts, and that they tile the pixel. -/
def Obligations.ExtractSplitsThePixel : Prop :=
  ∀ p : Pixel,
    (red5 p).toNat = ((p &&& 0xF800#16) >>> 11).toNat ∧
    (green6 p).toNat = ((p &&& 0x07E0#16) >>> 5).toNat ∧
    (blue5 p).toNat = (p &&& 0x001F#16).toNat ∧
    (red5 p).toNat * 2048 + (green6 p).toNat * 32 + (blue5 p).toNat = p.toNat

/-- 40_colorconverter.md R63: multiply, then divide, discarding the remainder; 0 gives 0, the largest field gives 255,
and the function is strictly increasing in the field. -/
def Obligations.NormalizeScalesTo255 : Prop :=
  (∀ p : Pixel,
    (channelsOf p).r8.toNat = (red5 p).toNat * 255 / 31 ∧
    (channelsOf p).g8.toNat = (green6 p).toNat * 255 / 63 ∧
    (channelsOf p).b8.toNat = (blue5 p).toNat * 255 / 31) ∧
  (∀ v w, v < w → w ≤ 31 → (normalizeTo8 v 31).toNat < (normalizeTo8 w 31).toNat) ∧
  (∀ v w, v < w → w ≤ 63 → (normalizeTo8 v 63).toNat < (normalizeTo8 w 63).toNat) ∧
  normalizeTo8 0 31 = 0#8 ∧ normalizeTo8 0 63 = 0#8 ∧ normalizeTo8 31 31 = 255#8 ∧ normalizeTo8 63 63 = 255#8

/-- 40_colorconverter.md section 2: the tables `N5` and `N6`, which the spec marks as derived from the formula. -/
def Obligations.NormalizeTablesAreTheFormula : Prop :=
  n5Table.length = 32 ∧ n6Table.length = 64 ∧
  (∀ v, v < 32 → n5Table[v]? = some (normalizeTo8 v 31).toNat) ∧
  (∀ v, v < 64 → n6Table[v]? = some (normalizeTo8 v 63).toNat)

/-- 40_colorconverter.md R65: the accumulator holds the exact sum of the three products, and 18 bits never wrap. -/
def Obligations.WeightedSumIsExact : Prop :=
  ∀ c : Channels,
    (weightedSum c).toNat = 299 * c.r8.toNat + 587 * c.g8.toNat + 114 * c.b8.toNat ∧
    (weightedSum c).toNat ≤ 255000

/-- 40_colorconverter.md R66: truncation drops the remainder and nothing else, for every value the accumulator can
hold. -/
def Obligations.TruncDropsOnlyTheFraction : Prop :=
  (∀ c : Channels, (truncAcc (weightedSum c)).toNat = (weightedSum c).toNat / 1000) ∧
  (∀ acc : Acc, acc.toNat ≤ 255000 → (truncAcc acc).toNat = acc.toNat / 1000)

/-- 40_colorconverter.md R68: the whole per-pixel function as one formula over the slices of the pixel, and the two fixed
points. -/
def Obligations.LumaOfIsTheFormula : Prop :=
  (∀ p : Pixel, (lumaOf p).toNat =
    (299 * ((p.toNat / 2048 * 255) / 31) + 587 * ((p.toNat / 32 % 64 * 255) / 63)
      + 114 * ((p.toNat % 32 * 255) / 31)) / 1000) ∧
  lumaOf 0xFFFF#16 = 255#8 ∧ lumaOf 0x0000#16 = 0#8

/-- 40_colorconverter.md section 2, which the spec marks as derived: the luma is non-decreasing in each channel. -/
def Obligations.LumaIsMonotone : Prop :=
  ∀ p q : Pixel, (red5 p).toNat ≤ (red5 q).toNat → (green6 p).toNat ≤ (green6 q).toNat →
    (blue5 p).toNat ≤ (blue5 q).toNat → (lumaOf p).toNat ≤ (lumaOf q).toNat

/-- 40_colorconverter.md R71: two runs of CONVERT on equal `RAW` give equal `LUMA`, whatever else differs. -/
def Obligations.ConvertDependsOnRawAlone : Prop :=
  ∀ s s' : State, (∀ i, i < 25344 → s.rawAt i = s'.rawAt i) →
    ∃ t t', exec .convert s = .next t ∧ exec .convert s' = .next t' ∧
      ∀ i, i < 25344 → t.lumaAt i = t'.lumaAt i

/-! ### The Resampler -/

/-- 41_resampler.md R75: the coordinate functions; with the equal forms and the tables the spec derives from them. -/
def Obligations.SourceCoordinatesAreTheTables : Prop :=
  ∀ d, d < 32 →
    srcX d = (d * 176) / 32 ∧ srcX d = (11 * d) / 2 ∧ lutX[d]? = some (srcX d) ∧
    srcY d = (d * 144) / 32 ∧ srcY d = (9 * d) / 2 ∧ lutY[d]? = some (srcY d)

/-- 41_resampler.md section 4 and 20_memory.md section 6, which the spec marks as derived: every index is inside its
buffer, and the mapping stays inside the source for any sizes. -/
def Obligations.SourceAddressesAreInRange : Prop :=
  (∀ x y, x < 32 → y < 32 → srcX x ≤ 170 ∧ srcY y ≤ 139 ∧ srcAddr x y ≤ 24634 ∧ y * 32 + x ≤ 1023) ∧
  (∀ srcSize outSize d, d < outSize → 0 < srcSize → srcCoord srcSize outSize d < srcSize)

/-- 41_resampler.md section 2, which the spec marks as derived: different output pixels read different source pixels. -/
def Obligations.SourceAddressesAreDistinct : Prop :=
  ∀ x y x' y', x < 32 → y < 32 → x' < 32 → y' < 32 → srcAddr x y = srcAddr x' y' → x = x' ∧ y = y'

/-- 41_resampler.md section 4 (a), which the spec marks as derived: a uniform luma frame gives a uniform tensor of the
same value. -/
def Obligations.UniformLumaGivesUniformTensor : Prop :=
  ∀ (s : State) (v : Byte), s.outRaces = [] → (∀ i, i < 25344 → s.lumaAt i = v) →
    ∃ t, exec .resample s = .next t ∧ ∀ j, j < 1024 → t.outAt j = v

/-- 41_resampler.md section 4 (b), which the spec marks as derived: a checkerboard of 11 by 9 source cells gives a
checkerboard of 2 by 2 output cells. -/
def Obligations.CheckerboardScales : Prop :=
  ∀ (s : State) (u v : Byte), s.outRaces = [] →
    (∀ x y, x < 176 → y < 144 → s.lumaAt (y * 176 + x) = if (x / 11 + y / 9) % 2 = 1 then u else v) →
    ∃ t, exec .resample s = .next t ∧
      ∀ x y, x < 32 → y < 32 → t.outAt (y * 32 + x) = if (x / 2 + y / 2) % 2 = 1 then u else v

/-- 41_resampler.md section 3: the tensor depends on the sampled elements alone, not on the other 24320 of `LUMA`, nor on
what `OUT` held. -/
def Obligations.ResampleDependsOnSamplesAlone : Prop :=
  ∀ s s' : State, s.outRaces = [] → s'.outRaces = [] →
    (∀ x y, x < 32 → y < 32 → s.lumaAt ((y * 144 / 32) * 176 + x * 176 / 32)
      = s'.lumaAt ((y * 144 / 32) * 176 + x * 176 / 32)) →
    ∃ t t', exec .resample s = .next t ∧ exec .resample s' = .next t' ∧ ∀ j, j < 1024 → t.outAt j = t'.outAt j

/-! ### Status, host and FrameSource -/

/-- 10_state.md R18: the layout of `STATUS`, register 1; a read has no side effect on the block (`observed` is what the host got); a
write is ignored; after reset it reads 0. (The list of values R18 marks as derived is `StatusTakesFiveValues`.) -/
def Obligations.StatusLayoutAndAccess : Prop :=
  (∀ s : State, s.statusWord.toNat =
    (if s.phase = .idle then 0 else 1) + (if s.done then 2 else 0) +
      (match s.code with
       | .ok => 0
       | .captureFailure => 4
       | .unsupportedResolution => 8)) ∧
  (∀ (s : State) (rest : List Input), s.inputs = .regRead 1 :: rest →
    step s = .next { s with inputs := rest, observed := .status s.statusWord :: s.observed }) ∧
  (∀ (s : State) (v : CmdWord) (rest : List Input), s.inputs = .regWrite 1 v :: rest →
    step s = .next { s with inputs := rest }) ∧
  State.reset.statusWord = 0#32

/-- 10_state.md section 4, which the spec marks as derived: the only values `STATUS` can read, in every state that meets
the invariant. -/
def Obligations.StatusTakesFiveValues : Prop :=
  ∀ s : State, s.Inv →
    s.statusWord = 0x0#32 ∨ s.statusWord = 0x1#32 ∨ s.statusWord = 0x2#32 ∨ s.statusWord = 0x6#32 ∨
      s.statusWord = 0xA#32

/-- 10_state.md section 4: a host read of register 0, `CMD`, is refused, as the section asks of a model, or, where the
model is set to the hardware's answer, gets some value, a free one; either way nothing of the block changes (log 4). -/
def Obligations.ReadOfCmdChangesNothing : Prop :=
  ∀ (s : State) (rest : List Input), s.inputs = .regRead 0 :: rest →
    (s.cmdMisuseRefused = true → step s = .refused .readOfCmd) ∧
    (s.cmdMisuseRefused = false →
      ∃ v, step s = .next { s with inputs := rest, observed := .cmd v :: s.observed, draws := s.draws + 1 })

/-- 20_memory.md sections 5 and 7: in IDLE the host reads and writes `OUT` as its own memory. -/
def Obligations.HostOwnsOutInIdle : Prop :=
  ∀ (s : State) (i : Nat) (rest : List Input), s.phase = .idle → i < 1024 →
    (s.inputs = .outRead i :: rest →
      step s = .next { s with inputs := rest, observed := .out i (s.outAt i) :: s.observed }) ∧
    (∀ v, s.inputs = .outWrite i v :: rest →
      ∃ t, step s = .next t ∧ t.outAt i = v ∧ (∀ j, j ≠ i → t.outAt j = s.outAt j) ∧
        (∀ k, t.rawAt k = s.rawAt k) ∧ (∀ k, t.lumaAt k = s.lumaAt k) ∧
        { t with mem := s.mem } = { s with inputs := rest })

/-- 42_pipeline.md section 3 and 10_state.md section 7 (b): while `CAP_REQ` = 1 a FrameSource write changes one element of
`RAW` and nothing else; while `CAP_REQ` = 0 it is refused (log 15). -/
def Obligations.FrameSourceWritesRawOnlyInCapture : Prop :=
  ∀ (s : State) (i : Nat) (v : Pixel) (rest : List Input), s.inputs = .rawWrite i v :: rest →
    (s.capReq = true → i < 25344 →
      ∃ t, step s = .next t ∧ t.rawAt i = v ∧ (∀ k, k ≠ i → t.rawAt k = s.rawAt k) ∧
        (∀ k, t.lumaAt k = s.lumaAt k) ∧ (∀ j, t.outAt j = s.outAt j) ∧
        { t with mem := s.mem } = { s with inputs := rest }) ∧
    (s.capReq = false → step s = .refused .frameSourceOutsideCapture)

/-- 42_pipeline.md section 3: a `CAP_DONE` when `CAP_REQ` = 0 is ignored. -/
def Obligations.SpuriousAnswerIsIgnored : Prop :=
  ∀ (s : State) (a : CapAnswer) (rest : List Input), s.inputs = .capDone a :: rest → s.capReq = false →
    step s = .next { s with inputs := rest }

/-! ### The machine -/

/-- A step runs the decoded instruction: the operation the phase selects on the controller's turn, the word written to
`CMD`, and CAPTURE when the FrameSource answers (30_encoding.md sections 3 and 4, 42_pipeline.md section 1; log 14). A word
written while BUSY is run where the model is set to the hardware's answer, and refused otherwise (60_exceptions.md section
7, log 2). -/
def Obligations.StepRunsTheDecodedInstruction : Prop :=
  ∀ (s : State) (i : Instr),
    (decode (.phase s.phase.bits) = .ok i →
      (s.inputs = [] → step s = exec i s) ∧
      (∀ rest, s.inputs = .turn :: rest → step s = exec i { s with inputs := rest }) ∧
      (∀ a rest, s.inputs = .capDone a :: rest → s.capReq = true →
        step s = exec i { s with inputs := rest, capDone := some a })) ∧
    (∀ c rest, decode (.cmd c) = .ok i → s.inputs = .cmdWrite c :: rest →
      (s.phase = .idle ∨ s.cmdMisuseRefused = false → step s = exec i { s with inputs := rest }) ∧
      (s.phase ≠ .idle → s.cmdMisuseRefused = true → step s = .refused .commandWhileBusy)) ∧
    (s.phase = .idle → (s.inputs = [] → step s = .next s) ∧
      ∀ rest, s.inputs = .turn :: rest → step s = .next { s with inputs := rest })

/-- The next step of a state with a fetched word runs exactly that instruction (log 14, 16: the model's choice of where an
operation is fetched; log 2 for a command word in a running command: the setting is then the one that runs it). -/
def Obligations.FetchedWordRunsNext : Prop :=
  ∀ (s : State) (w : Nat) (i : Instr),
    (decodeTableWord 32 w = some i → step (s.withFetchWord 32 w)
      = exec i { s with cmdMisuseRefused := s.cmdMisuseRefused && !s.busy }) ∧
    (decodeTableWord 8 w = some i → ∃ p, step (s.withFetchWord 8 w)
      = exec i { s with phase := p, capReq := decide (p = .capture) } ∧ decode (.phase p.bits) = .ok i)

/-- 10_state.md section 8 and 70_reset_and_hazards.md section 1: what reset leaves, of the values the spec gives, and that
the first `CMD` write is accepted. That `LEGACY_UNCHECKED` is false is its default (00_scope.md section 4) and this model's
choice of `State.reset` (log 1); the reset input keeps the parameter. -/
def Obligations.ResetLeavesTheBlockReady : Prop :=
  State.reset.phase = .idle ∧ State.reset.done = false ∧ State.reset.code = .ok ∧ State.reset.capReq = false ∧
  State.reset.statusWord = 0x00000000#32 ∧ State.reset.legacyUnchecked = false ∧
  ∀ c rest, ∃ t, step { State.reset with inputs := .cmdWrite c :: rest } = .next t ∧ t.phase = .check

/-- The state after reset meets the invariant (10_state.md section 9). -/
def Obligations.ResetMeetsTheInvariant : Prop := State.reset.Inv

/-- 10_state.md section 9, which the spec marks as derived: every step keeps the invariant, from every state that meets
it. -/
def Obligations.EveryStepKeepsTheInvariant : Prop :=
  ∀ s t : State, s.Inv → step s = .next t → t.Inv

/-- 20_memory.md section 1: every step keeps the canonical form of the buffers, in any phase and whatever the other
registers hold. -/
def Obligations.EveryStepKeepsTheMemoryForm : Prop :=
  ∀ s t : State, s.mem.wf = true → step s = .next t → t.mem.wf = true

/-- The canonical form is canonical: memories in that form that hold the same at every index of every buffer are equal
data (log 7: an element not written holds no value). -/
def Obligations.CanonicalMemoriesAreEqualData : Prop :=
  ∀ m m' : Memory, m.wf = true → m'.wf = true →
    (∀ i, cellAt? m.raw i = cellAt? m'.raw i) → (∀ i, cellAt? m.luma i = cellAt? m'.luma i) →
    (∀ j, cellAt? m.out j = cellAt? m'.out j) → m = m'

/-- 70_reset_and_hazards.md R119, with the register values R117 gives: reset in any phase aborts the command; `LUMA` is
old or converted per element if it hit CONVERT, `OUT` is old or sampled per element if it hit RESAMPLE and untouched
otherwise. -/
def Obligations.ResetAbortsTheCommand : Prop :=
  ∀ (s : State) (rest : List Input), s.inputs = .reset :: rest →
    ∃ t, step s = .next t ∧
      t.phase = .idle ∧ t.done = false ∧ t.code = .ok ∧ t.capReq = false ∧ t.statusWord = 0#32 ∧
      (s.phase = .convert → ∀ i, i < 25344 → t.lumaAt i = s.lumaAt i ∨ t.lumaAt i = lumaOf (s.rawAt i)) ∧
      (s.phase = .resample → ∀ j, j < 1024 → t.outAt j = s.outAt j ∨ t.outAt j = s.lumaAt (srcAddrOf j)) ∧
      (s.phase ≠ .resample → ∀ j, t.outAt j = s.outAt j)

/-- 42_pipeline.md section 5 (the controller's table: "No other transition exists"): the phase changes only by reset or
along an edge of the table; IDLE is left only by a write of `CMD`, CAPTURE only by an answer, CHECK for CAPTURE exactly
when the request is the supported one (or is not checked). -/
def Obligations.PhaseMovesOnlyAlongTheTable : Prop :=
  ∀ s t : State, s.Inv → step s = .next t → t.phase ≠ s.phase →
    (s.inputs.head? = some .reset ∧ t.phase = .idle) ∨
    (PhaseEdge s.phase t.phase = true ∧
      (s.phase = .idle → ∃ c, s.inputs.head? = some (.cmdWrite c)) ∧
      (s.phase = .capture → ∃ a, s.inputs.head? = some (.capDone a)) ∧
      (s.phase = .check → (t.phase = .capture ↔
        s.legacyUnchecked = true ∨ (s.cmdW = 32#12 ∧ s.cmdH = 32#12 ∧ s.cmdCh = 1#8))))

/-- 42_pipeline.md R96: while the FrameSource does not answer and no reset comes, the block stays in CAPTURE for any
number of steps, `STATUS` reads 1, no command is accepted; and that run exists for ever. -/
def Obligations.CaptureWaitsForEver : Prop :=
  (∀ (n : Nat) (s t : State), s.Inv → s.phase = .capture → (∀ e ∈ s.inputs, e.endsCapture = false) →
    stepsTo n s t →
    t.phase = .capture ∧ t.capReq = true ∧ t.statusWord = 1#32 ∧
      t.cmdW = s.cmdW ∧ t.cmdH = s.cmdH ∧ t.cmdCh = s.cmdCh) ∧
  (∀ (n : Nat) (s : State), s.phase = .capture → s.capDone = none → s.inputs = [] → stepsTo n s s)

/-- 60_exceptions.md R102: the numbers of the two errors; an error status appears only out of CHECK
(UnsupportedResolution, exactly for an unsupported request) or out of CAPTURE (CaptureFailure, on an answer with
`CAP_OK` = 0), and the step that reports it leaves `LUMA` and `OUT` as they were. Beside it, from 10_state.md section 3,
42_pipeline.md section 4 and 60_exceptions.md section 5, who may change `DONE` and `CODE` at all: acceptance and reset
clear them, and the end of a command, in CHECK, CAPTURE or RESAMPLE, sets them. -/
def Obligations.OnlyTwoErrorCauses : Prop :=
  Code.captureFailure.bits = 1#2 ∧ Code.unsupportedResolution.bits = 2#2 ∧
  (∀ s t : State, s.Inv → step s = .next t → t.code ≠ s.code → t.code ≠ .ok →
    t.phase = .idle ∧ t.done = true ∧
    (∀ i, t.lumaAt i = s.lumaAt i) ∧ (∀ j, t.outAt j = s.outAt j) ∧
    ((s.phase = .check ∧ t.code = .unsupportedResolution ∧ (∀ i, t.rawAt i = s.rawAt i) ∧
        ¬ (s.cmdW = 32#12 ∧ s.cmdH = 32#12 ∧ s.cmdCh = 1#8)) ∨
     (s.phase = .capture ∧ t.code = .captureFailure ∧
        ∃ f, s.inputs.head? = some (.capDone { capOk := false, frame := f })))) ∧
  ∀ s t : State, s.Inv → step s = .next t → (t.done ≠ s.done ∨ t.code ≠ s.code) →
    (t.done = false ∧ t.code = .ok ∧
      ((s.phase = .idle ∧ t.phase = .check ∧ ∃ c, s.inputs.head? = some (.cmdWrite c)) ∨
        s.inputs.head? = some .reset)) ∨
    (t.done = true ∧ t.phase = .idle ∧
      ((s.phase = .check ∧ t.code = .unsupportedResolution) ∨ (s.phase = .capture ∧ t.code = .captureFailure) ∨
        (s.phase = .resample ∧ t.code = .ok)))

/-- 10_state.md section 6 (`OUT`: written by the block only in RESAMPLE, and by the host). -/
def Obligations.OutIsWrittenOnlyByResampleAndHost : Prop :=
  ∀ (s t : State) (j : Nat), step s = .next t → t.outAt j ≠ s.outAt j →
    s.phase = .resample ∨ ∃ v, s.inputs.head? = some (.outWrite j v) ∧ t.outAt j = v

/-- 10_state.md section 6 (`LUMA`: written only by CONVERT), and 70_reset_and_hazards.md section 1 for reset. -/
def Obligations.LumaIsWrittenOnlyByConvert : Prop :=
  ∀ (s t : State) (i : Nat), step s = .next t → t.lumaAt i ≠ s.lumaAt i →
    s.phase = .convert ∨ s.inputs.head? = some .reset

/-- 10_state.md section 6 (`RAW`: written only by the FrameSource while `PHASE == CAPTURE`), and 70_reset_and_hazards.md
section 1 for reset. -/
def Obligations.RawIsWrittenOnlyByTheFrameSource : Prop :=
  ∀ (s t : State) (i : Nat), s.Inv → step s = .next t → t.rawAt i ≠ s.rawAt i →
    (s.phase = .capture ∧ ((∃ v, s.inputs.head? = some (.rawWrite i v)) ∨ ∃ a, s.inputs.head? = some (.capDone a))) ∨
    s.inputs.head? = some .reset

/-- 10_state.md section 4 (the latches: written only by command acceptance), and section 8 for reset; the parameters are
never written (00_scope.md section 4, log 1, 2, 4). -/
def Obligations.LatchesAreWrittenOnlyByAcceptance : Prop :=
  ∀ s t : State, step s = .next t →
    t.legacyUnchecked = s.legacyUnchecked ∧ t.cmdMisuseRefused = s.cmdMisuseRefused ∧
    ((t.cmdW ≠ s.cmdW ∨ t.cmdH ≠ s.cmdH ∨ t.cmdCh ≠ s.cmdCh) →
      (s.phase = .idle ∧ ∃ c, s.inputs.head? = some (.cmdWrite c)) ∨ s.inputs.head? = some .reset)

/-- 42_pipeline.md section 6 and 70_reset_and_hazards.md section 4, which the spec marks as derived: CHECK, CONVERT and
RESAMPLE need nothing from outside: left alone, the block ends its command or waits in CAPTURE after at most two steps. -/
def Obligations.StagesEndWithoutHelp : Prop :=
  ∀ s : State, s.phase ≠ .idle → s.phase ≠ .capture → s.inputs = [] →
    ∃ n t, n ≤ 2 ∧ stepsTo n s t ∧ ((t.phase = .idle ∧ t.done = true) ∨ t.phase = .capture)

/-- 10_state.md section 9, 42_pipeline.md section 6, 70_reset_and_hazards.md section 3: as long as the host and the
FrameSource keep their contracts no step stops. -/
def Obligations.ContractKeptNeverStops : Prop :=
  ∀ s : State, s.contractKept = true → ∃ t, step s = .next t

/-- 60_exceptions.md sections 2 and 7: every stop of the machine is one of the named ones, and none comes from the
block: an element of `OUT` or of `RAW` that does not exist (log 19), a register number that does not exist (log 29), a
FrameSource write outside a capture (log 15), or, where the model is set to refuse them, a host write of `CMD` while BUSY
(log 2) or a host read of `CMD` (log 4). -/
def Obligations.StopsComeFromOutsideTheBlock : Prop :=
  ∀ s : State,
    (∀ f, step s = .fault f →
      (∃ i, 1024 ≤ i ∧ f = .noSuchElement .out i ∧
        (s.inputs.head? = some (.outRead i) ∨ ∃ v, s.inputs.head? = some (.outWrite i v))) ∨
      (∃ i v, 25344 ≤ i ∧ f = .noSuchElement .raw i ∧ s.inputs.head? = some (.rawWrite i v)) ∨
      (∃ n, 2 ≤ n ∧ f = .noSuchRegister n ∧
        (s.inputs.head? = some (.regRead n) ∨ ∃ v, s.inputs.head? = some (.regWrite n v)))) ∧
    (∀ r, step s = .refused r →
      (r = .frameSourceOutsideCapture ∧ s.capReq = false ∧ ∃ i v, s.inputs.head? = some (.rawWrite i v)) ∨
      (r = .commandWhileBusy ∧ s.phase ≠ .idle ∧ s.cmdMisuseRefused = true ∧
        ∃ c, s.inputs.head? = some (.regWrite 0 c)) ∨
      (r = .readOfCmd ∧ s.cmdMisuseRefused = true ∧ s.inputs.head? = some (.regRead 0)))

/-! ### Whole commands -/

/-- 42_pipeline.md section 5, row OK of the summary the spec marks as derived: a supported command whose capture is
answered with frame `F` ends with `CODE` 0, `RAW` = `F`, `LUMA` its luma and `OUT` the sampled luma, a function of `F`
alone. Between its moves the host may poll and read (`q`, `q₁`, `q₂`), and while the capture waits the controller may have
turns and the FrameSource may write `RAW` (`w`). -/
def Obligations.SupportedCommandDeliversTheTensor : Prop :=
  ∀ (s : State) (q w q₁ q₂ : List Input) (F : Frame) (rest : List Input), s.Inv → s.phase = .idle →
    s.legacyUnchecked = false → (∀ e ∈ q ++ q₁ ++ q₂, e.quiet s.cmdMisuseRefused = true) →
    (∀ e ∈ w, e.waits s.cmdMisuseRefused = true) →
    s.inputs = commandScript 0x01020020#32 q w { capOk := true, frame := F } q₁ q₂ ++ rest →
    ∃ t, stepsTo (q.length + w.length + q₁.length + q₂.length + 5) s t ∧
      t.phase = .idle ∧ t.done = true ∧ t.code = .ok ∧ t.statusWord = 2#32 ∧ t.inputs = rest ∧
      (∀ i, i < 25344 → t.rawAt i = F.at i ∧ t.lumaAt i = lumaOf (F.at i)) ∧
      (∀ x y, x < 32 → y < 32 → ∃ lx ly, lutX[x]? = some lx ∧ lutY[y]? = some ly ∧
        t.outAt (y * 32 + x) = lumaOf (F.at (ly * 176 + lx)))

/-- 42_pipeline.md section 5, row UnsupportedResolution, and 60_exceptions.md section 4: any other word ends with `CODE` 2
in CHECK, the FrameSource is never asked, and all three buffers are as they were. -/
def Obligations.UnsupportedCommandLeavesTheBuffers : Prop :=
  ∀ (s : State) (c : CmdWord) (rest : List Input), s.phase = .idle → s.capReq = false → s.legacyUnchecked = false →
    c ≠ 0x01020020#32 → s.inputs = .cmdWrite c :: .turn :: rest →
    ∃ u t, step s = .next u ∧ u.phase = .check ∧ u.capReq = false ∧
      step u = .next t ∧ t.phase = .idle ∧ t.done = true ∧ t.code = .unsupportedResolution ∧ t.statusWord = 0xA#32 ∧
      t.capReq = false ∧ t.inputs = rest ∧
      (∀ i, t.rawAt i = s.rawAt i) ∧ (∀ i, t.lumaAt i = s.lumaAt i) ∧ (∀ j, t.outAt j = s.outAt j)

/-- 42_pipeline.md section 5, row CaptureFailure, and 60_exceptions.md section 2: a supported command whose capture fails
ends with `CODE` 1; `LUMA` and `OUT` are as they were, `RAW` holds whatever the FrameSource left (log 13: the content the
answer carries). `q` and `w` are as in `SupportedCommandDeliversTheTensor`. -/
def Obligations.FailedCaptureLeavesTheTensor : Prop :=
  ∀ (s : State) (q w : List Input) (F : Frame) (rest : List Input), s.Inv → s.phase = .idle →
    s.legacyUnchecked = false → (∀ e ∈ q, e.quiet s.cmdMisuseRefused = true) →
    (∀ e ∈ w, e.waits s.cmdMisuseRefused = true) →
    s.inputs = captureScript 0x01020020#32 q w { capOk := false, frame := F } ++ rest →
    ∃ t, stepsTo (q.length + w.length + 3) s t ∧ t.phase = .idle ∧ t.done = true ∧ t.code = .captureFailure ∧
      t.statusWord = 6#32 ∧ t.inputs = rest ∧
      (∀ i, i < 25344 → t.rawAt i = F.at i) ∧
      (∀ i, t.lumaAt i = s.lumaAt i) ∧ (∀ j, t.outAt j = s.outAt j)

/-- 42_pipeline.md section 6, determinism, which the spec marks as derived: two supported commands whose captures deliver
equal frames end with equal tensors, whatever the buffers, the registers and the moves in between were. Both start in an
IDLE state that meets the invariant, in the normative setting. -/
def Obligations.EqualFramesGiveEqualTensors : Prop :=
  ∀ (s s' : State) (q w q₁ q₂ q' w' q₁' q₂' : List Input) (F F' : Frame) (rest rest' : List Input), s.Inv → s'.Inv →
    s.phase = .idle → s'.phase = .idle → s.legacyUnchecked = false → s'.legacyUnchecked = false →
    (∀ e ∈ q ++ q₁ ++ q₂, e.quiet s.cmdMisuseRefused = true) → (∀ e ∈ w, e.waits s.cmdMisuseRefused = true) →
    (∀ e ∈ q' ++ q₁' ++ q₂', e.quiet s'.cmdMisuseRefused = true) →
    (∀ e ∈ w', e.waits s'.cmdMisuseRefused = true) →
    (∀ i, i < 25344 → F.at i = F'.at i) →
    s.inputs = commandScript 0x01020020#32 q w { capOk := true, frame := F } q₁ q₂ ++ rest →
    s'.inputs = commandScript 0x01020020#32 q' w' { capOk := true, frame := F' } q₁' q₂' ++ rest' →
    ∃ t t', stepsTo (q.length + w.length + q₁.length + q₂.length + 5) s t ∧
      stepsTo (q'.length + w'.length + q₁'.length + q₂'.length + 5) s' t' ∧
      t.phase = .idle ∧ t'.phase = .idle ∧ t.code = .ok ∧ t'.code = .ok ∧
      ∀ j, j < 1024 → t.outAt j = t'.outAt j

/-- 42_pipeline.md section 6 (`LEGACY_UNCHECKED = true`), whose consequences the spec marks as derived: no step gives
`CODE` another value than 0, so that every command that ends, whatever happens meanwhile, ends with `CODE` 0 (first
clause); and a whole command, whatever it asked for and whatever the capture said, ends with an `OUT` computed from what
the capture left in `RAW` (second clause, with the moves of `SupportedCommandDeliversTheTensor`). -/
def Obligations.LegacyCommandAlwaysEndsOk : Prop :=
  (∀ s t : State, s.Inv → s.legacyUnchecked = true → s.code = .ok → step s = .next t →
    t.Inv ∧ t.legacyUnchecked = true ∧ t.code = .ok) ∧
  ∀ (s : State) (c : CmdWord) (q w q₁ q₂ : List Input) (a : CapAnswer) (rest : List Input), s.Inv → s.phase = .idle →
    s.legacyUnchecked = true → (∀ e ∈ q ++ q₁ ++ q₂, e.quiet s.cmdMisuseRefused = true) →
    (∀ e ∈ w, e.waits s.cmdMisuseRefused = true) →
    s.inputs = commandScript c q w a q₁ q₂ ++ rest →
    ∃ t, stepsTo (q.length + w.length + q₁.length + q₂.length + 5) s t ∧
      t.phase = .idle ∧ t.done = true ∧ t.code = .ok ∧
      (∀ x y, x < 32 → y < 32 → t.outAt (y * 32 + x) = lumaOf (a.frame.at ((y * 144 / 32) * 176 + x * 176 / 32)))
end

