-- ==== Sys2Proof/Laws/State.lean ====
section
/-! SUPPORT. One lemma per field per named update, all true by rfl, so that no later proof unfolds a record update. -/

namespace Sys2Proof.Machine

/-! ### `complete` -/

@[simp] theorem complete_phase (c : Code) (s : State) : (complete c s).phase = .idle := rfl
@[simp] theorem complete_done (c : Code) (s : State) : (complete c s).done = true := rfl
@[simp] theorem complete_code (c : Code) (s : State) : (complete c s).code = c := rfl
@[simp] theorem complete_cmdW (c : Code) (s : State) : (complete c s).cmdW = s.cmdW := rfl
@[simp] theorem complete_cmdH (c : Code) (s : State) : (complete c s).cmdH = s.cmdH := rfl
@[simp] theorem complete_cmdCh (c : Code) (s : State) : (complete c s).cmdCh = s.cmdCh := rfl
@[simp] theorem complete_capReq (c : Code) (s : State) : (complete c s).capReq = s.capReq := rfl
@[simp] theorem complete_idx (c : Code) (s : State) : (complete c s).idx = s.idx := rfl
@[simp] theorem complete_xo (c : Code) (s : State) : (complete c s).xo = s.xo := rfl
@[simp] theorem complete_yo (c : Code) (s : State) : (complete c s).yo = s.yo := rfl
@[simp] theorem complete_acc (c : Code) (s : State) : (complete c s).acc = s.acc := rfl
@[simp] theorem complete_mem (c : Code) (s : State) : (complete c s).mem = s.mem := rfl
@[simp] theorem complete_legacyUnchecked (c : Code) (s : State) : (complete c s).legacyUnchecked = s.legacyUnchecked := rfl
@[simp] theorem complete_cmdMisuseRefused (c : Code) (s : State) : (complete c s).cmdMisuseRefused = s.cmdMisuseRefused := rfl
@[simp] theorem complete_inputs (c : Code) (s : State) : (complete c s).inputs = s.inputs := rfl
@[simp] theorem complete_capDone (c : Code) (s : State) : (complete c s).capDone = s.capDone := rfl
@[simp] theorem complete_observed (c : Code) (s : State) : (complete c s).observed = s.observed := rfl
@[simp] theorem complete_outRaces (c : Code) (s : State) : (complete c s).outRaces = [] := rfl
@[simp] theorem complete_epoch (c : Code) (s : State) : (complete c s).epoch = s.epoch := rfl
@[simp] theorem complete_draws (c : Code) (s : State) : (complete c s).draws = s.draws := rfl

/-! ### `acceptCommand` -/

@[simp] theorem acceptCommand_phase (c : CmdWord) (s : State) : (acceptCommand c s).phase = .check := rfl
@[simp] theorem acceptCommand_done (c : CmdWord) (s : State) : (acceptCommand c s).done = false := rfl
@[simp] theorem acceptCommand_code (c : CmdWord) (s : State) : (acceptCommand c s).code = .ok := rfl
@[simp] theorem acceptCommand_cmdW (c : CmdWord) (s : State) : (acceptCommand c s).cmdW = cmdFieldW c := rfl
@[simp] theorem acceptCommand_cmdH (c : CmdWord) (s : State) : (acceptCommand c s).cmdH = cmdFieldH c := rfl
@[simp] theorem acceptCommand_cmdCh (c : CmdWord) (s : State) : (acceptCommand c s).cmdCh = cmdFieldCh c := rfl
@[simp] theorem acceptCommand_capReq (c : CmdWord) (s : State) : (acceptCommand c s).capReq = s.capReq := rfl
@[simp] theorem acceptCommand_idx (c : CmdWord) (s : State) : (acceptCommand c s).idx = s.idx := rfl
@[simp] theorem acceptCommand_xo (c : CmdWord) (s : State) : (acceptCommand c s).xo = s.xo := rfl
@[simp] theorem acceptCommand_yo (c : CmdWord) (s : State) : (acceptCommand c s).yo = s.yo := rfl
@[simp] theorem acceptCommand_acc (c : CmdWord) (s : State) : (acceptCommand c s).acc = s.acc := rfl
@[simp] theorem acceptCommand_mem (c : CmdWord) (s : State) : (acceptCommand c s).mem = s.mem := rfl
@[simp] theorem acceptCommand_legacyUnchecked (c : CmdWord) (s : State) : (acceptCommand c s).legacyUnchecked = s.legacyUnchecked := rfl
@[simp] theorem acceptCommand_cmdMisuseRefused (c : CmdWord) (s : State) : (acceptCommand c s).cmdMisuseRefused = s.cmdMisuseRefused := rfl
@[simp] theorem acceptCommand_inputs (c : CmdWord) (s : State) : (acceptCommand c s).inputs = s.inputs := rfl
@[simp] theorem acceptCommand_capDone (c : CmdWord) (s : State) : (acceptCommand c s).capDone = s.capDone := rfl
@[simp] theorem acceptCommand_observed (c : CmdWord) (s : State) : (acceptCommand c s).observed = s.observed := rfl
@[simp] theorem acceptCommand_outRaces (c : CmdWord) (s : State) : (acceptCommand c s).outRaces = s.outRaces := rfl
@[simp] theorem acceptCommand_epoch (c : CmdWord) (s : State) : (acceptCommand c s).epoch = s.epoch := rfl
@[simp] theorem acceptCommand_draws (c : CmdWord) (s : State) : (acceptCommand c s).draws = s.draws := rfl

/-! ### `requestCapture` -/

@[simp] theorem requestCapture_phase (s : State) : (requestCapture s).phase = .capture := rfl
@[simp] theorem requestCapture_done (s : State) : (requestCapture s).done = s.done := rfl
@[simp] theorem requestCapture_code (s : State) : (requestCapture s).code = s.code := rfl
@[simp] theorem requestCapture_cmdW (s : State) : (requestCapture s).cmdW = s.cmdW := rfl
@[simp] theorem requestCapture_cmdH (s : State) : (requestCapture s).cmdH = s.cmdH := rfl
@[simp] theorem requestCapture_cmdCh (s : State) : (requestCapture s).cmdCh = s.cmdCh := rfl
@[simp] theorem requestCapture_capReq (s : State) : (requestCapture s).capReq = true := rfl
@[simp] theorem requestCapture_idx (s : State) : (requestCapture s).idx = s.idx := rfl
@[simp] theorem requestCapture_xo (s : State) : (requestCapture s).xo = s.xo := rfl
@[simp] theorem requestCapture_yo (s : State) : (requestCapture s).yo = s.yo := rfl
@[simp] theorem requestCapture_acc (s : State) : (requestCapture s).acc = s.acc := rfl
@[simp] theorem requestCapture_mem (s : State) : (requestCapture s).mem = s.mem := rfl
@[simp] theorem requestCapture_legacyUnchecked (s : State) : (requestCapture s).legacyUnchecked = s.legacyUnchecked := rfl
@[simp] theorem requestCapture_cmdMisuseRefused (s : State) : (requestCapture s).cmdMisuseRefused = s.cmdMisuseRefused := rfl
@[simp] theorem requestCapture_inputs (s : State) : (requestCapture s).inputs = s.inputs := rfl
@[simp] theorem requestCapture_capDone (s : State) : (requestCapture s).capDone = s.capDone := rfl
@[simp] theorem requestCapture_observed (s : State) : (requestCapture s).observed = s.observed := rfl
@[simp] theorem requestCapture_outRaces (s : State) : (requestCapture s).outRaces = s.outRaces := rfl
@[simp] theorem requestCapture_epoch (s : State) : (requestCapture s).epoch = s.epoch := rfl
@[simp] theorem requestCapture_draws (s : State) : (requestCapture s).draws = s.draws := rfl

/-! ### `fillRaw` -/

@[simp] theorem fillRaw_phase (s : State) (f : Nat → Pixel) : (s.fillRaw f).phase = s.phase := rfl
@[simp] theorem fillRaw_done (s : State) (f : Nat → Pixel) : (s.fillRaw f).done = s.done := rfl
@[simp] theorem fillRaw_code (s : State) (f : Nat → Pixel) : (s.fillRaw f).code = s.code := rfl
@[simp] theorem fillRaw_cmdW (s : State) (f : Nat → Pixel) : (s.fillRaw f).cmdW = s.cmdW := rfl
@[simp] theorem fillRaw_cmdH (s : State) (f : Nat → Pixel) : (s.fillRaw f).cmdH = s.cmdH := rfl
@[simp] theorem fillRaw_cmdCh (s : State) (f : Nat → Pixel) : (s.fillRaw f).cmdCh = s.cmdCh := rfl
@[simp] theorem fillRaw_capReq (s : State) (f : Nat → Pixel) : (s.fillRaw f).capReq = s.capReq := rfl
@[simp] theorem fillRaw_idx (s : State) (f : Nat → Pixel) : (s.fillRaw f).idx = s.idx := rfl
@[simp] theorem fillRaw_xo (s : State) (f : Nat → Pixel) : (s.fillRaw f).xo = s.xo := rfl
@[simp] theorem fillRaw_yo (s : State) (f : Nat → Pixel) : (s.fillRaw f).yo = s.yo := rfl
@[simp] theorem fillRaw_acc (s : State) (f : Nat → Pixel) : (s.fillRaw f).acc = s.acc := rfl
@[simp] theorem fillRaw_mem (s : State) (f : Nat → Pixel) : (s.fillRaw f).mem = { s.mem with raw := fillCells Config.nPix f } := rfl
@[simp] theorem fillRaw_legacyUnchecked (s : State) (f : Nat → Pixel) : (s.fillRaw f).legacyUnchecked = s.legacyUnchecked := rfl
@[simp] theorem fillRaw_cmdMisuseRefused (s : State) (f : Nat → Pixel) : (s.fillRaw f).cmdMisuseRefused = s.cmdMisuseRefused := rfl
@[simp] theorem fillRaw_inputs (s : State) (f : Nat → Pixel) : (s.fillRaw f).inputs = s.inputs := rfl
@[simp] theorem fillRaw_capDone (s : State) (f : Nat → Pixel) : (s.fillRaw f).capDone = s.capDone := rfl
@[simp] theorem fillRaw_observed (s : State) (f : Nat → Pixel) : (s.fillRaw f).observed = s.observed := rfl
@[simp] theorem fillRaw_outRaces (s : State) (f : Nat → Pixel) : (s.fillRaw f).outRaces = s.outRaces := rfl
@[simp] theorem fillRaw_epoch (s : State) (f : Nat → Pixel) : (s.fillRaw f).epoch = s.epoch := rfl
@[simp] theorem fillRaw_draws (s : State) (f : Nat → Pixel) : (s.fillRaw f).draws = s.draws := rfl

/-! ### `fillLuma` -/

@[simp] theorem fillLuma_phase (s : State) (f : Nat → Byte) : (s.fillLuma f).phase = s.phase := rfl
@[simp] theorem fillLuma_done (s : State) (f : Nat → Byte) : (s.fillLuma f).done = s.done := rfl
@[simp] theorem fillLuma_code (s : State) (f : Nat → Byte) : (s.fillLuma f).code = s.code := rfl
@[simp] theorem fillLuma_cmdW (s : State) (f : Nat → Byte) : (s.fillLuma f).cmdW = s.cmdW := rfl
@[simp] theorem fillLuma_cmdH (s : State) (f : Nat → Byte) : (s.fillLuma f).cmdH = s.cmdH := rfl
@[simp] theorem fillLuma_cmdCh (s : State) (f : Nat → Byte) : (s.fillLuma f).cmdCh = s.cmdCh := rfl
@[simp] theorem fillLuma_capReq (s : State) (f : Nat → Byte) : (s.fillLuma f).capReq = s.capReq := rfl
@[simp] theorem fillLuma_idx (s : State) (f : Nat → Byte) : (s.fillLuma f).idx = s.idx := rfl
@[simp] theorem fillLuma_xo (s : State) (f : Nat → Byte) : (s.fillLuma f).xo = s.xo := rfl
@[simp] theorem fillLuma_yo (s : State) (f : Nat → Byte) : (s.fillLuma f).yo = s.yo := rfl
@[simp] theorem fillLuma_acc (s : State) (f : Nat → Byte) : (s.fillLuma f).acc = s.acc := rfl
@[simp] theorem fillLuma_mem (s : State) (f : Nat → Byte) : (s.fillLuma f).mem = { s.mem with luma := fillCells Config.nPix f } := rfl
@[simp] theorem fillLuma_legacyUnchecked (s : State) (f : Nat → Byte) : (s.fillLuma f).legacyUnchecked = s.legacyUnchecked := rfl
@[simp] theorem fillLuma_cmdMisuseRefused (s : State) (f : Nat → Byte) : (s.fillLuma f).cmdMisuseRefused = s.cmdMisuseRefused := rfl
@[simp] theorem fillLuma_inputs (s : State) (f : Nat → Byte) : (s.fillLuma f).inputs = s.inputs := rfl
@[simp] theorem fillLuma_capDone (s : State) (f : Nat → Byte) : (s.fillLuma f).capDone = s.capDone := rfl
@[simp] theorem fillLuma_observed (s : State) (f : Nat → Byte) : (s.fillLuma f).observed = s.observed := rfl
@[simp] theorem fillLuma_outRaces (s : State) (f : Nat → Byte) : (s.fillLuma f).outRaces = s.outRaces := rfl
@[simp] theorem fillLuma_epoch (s : State) (f : Nat → Byte) : (s.fillLuma f).epoch = s.epoch := rfl
@[simp] theorem fillLuma_draws (s : State) (f : Nat → Byte) : (s.fillLuma f).draws = s.draws := rfl

/-! ### `fillOut` -/

@[simp] theorem fillOut_phase (s : State) (f : Nat → Byte) : (s.fillOut f).phase = s.phase := rfl
@[simp] theorem fillOut_done (s : State) (f : Nat → Byte) : (s.fillOut f).done = s.done := rfl
@[simp] theorem fillOut_code (s : State) (f : Nat → Byte) : (s.fillOut f).code = s.code := rfl
@[simp] theorem fillOut_cmdW (s : State) (f : Nat → Byte) : (s.fillOut f).cmdW = s.cmdW := rfl
@[simp] theorem fillOut_cmdH (s : State) (f : Nat → Byte) : (s.fillOut f).cmdH = s.cmdH := rfl
@[simp] theorem fillOut_cmdCh (s : State) (f : Nat → Byte) : (s.fillOut f).cmdCh = s.cmdCh := rfl
@[simp] theorem fillOut_capReq (s : State) (f : Nat → Byte) : (s.fillOut f).capReq = s.capReq := rfl
@[simp] theorem fillOut_idx (s : State) (f : Nat → Byte) : (s.fillOut f).idx = s.idx := rfl
@[simp] theorem fillOut_xo (s : State) (f : Nat → Byte) : (s.fillOut f).xo = s.xo := rfl
@[simp] theorem fillOut_yo (s : State) (f : Nat → Byte) : (s.fillOut f).yo = s.yo := rfl
@[simp] theorem fillOut_acc (s : State) (f : Nat → Byte) : (s.fillOut f).acc = s.acc := rfl
@[simp] theorem fillOut_mem (s : State) (f : Nat → Byte) : (s.fillOut f).mem = { s.mem with out := fillCells Config.nOut f } := rfl
@[simp] theorem fillOut_legacyUnchecked (s : State) (f : Nat → Byte) : (s.fillOut f).legacyUnchecked = s.legacyUnchecked := rfl
@[simp] theorem fillOut_cmdMisuseRefused (s : State) (f : Nat → Byte) : (s.fillOut f).cmdMisuseRefused = s.cmdMisuseRefused := rfl
@[simp] theorem fillOut_inputs (s : State) (f : Nat → Byte) : (s.fillOut f).inputs = s.inputs := rfl
@[simp] theorem fillOut_capDone (s : State) (f : Nat → Byte) : (s.fillOut f).capDone = s.capDone := rfl
@[simp] theorem fillOut_observed (s : State) (f : Nat → Byte) : (s.fillOut f).observed = s.observed := rfl
@[simp] theorem fillOut_outRaces (s : State) (f : Nat → Byte) : (s.fillOut f).outRaces = s.outRaces := rfl
@[simp] theorem fillOut_epoch (s : State) (f : Nat → Byte) : (s.fillOut f).epoch = s.epoch := rfl
@[simp] theorem fillOut_draws (s : State) (f : Nat → Byte) : (s.fillOut f).draws = s.draws := rfl

/-! ### `endCapture` -/

@[simp] theorem endCapture_phase (a : CapAnswer) (s : State) : (endCapture a s).phase = s.phase := rfl
@[simp] theorem endCapture_done (a : CapAnswer) (s : State) : (endCapture a s).done = s.done := rfl
@[simp] theorem endCapture_code (a : CapAnswer) (s : State) : (endCapture a s).code = s.code := rfl
@[simp] theorem endCapture_cmdW (a : CapAnswer) (s : State) : (endCapture a s).cmdW = s.cmdW := rfl
@[simp] theorem endCapture_cmdH (a : CapAnswer) (s : State) : (endCapture a s).cmdH = s.cmdH := rfl
@[simp] theorem endCapture_cmdCh (a : CapAnswer) (s : State) : (endCapture a s).cmdCh = s.cmdCh := rfl
@[simp] theorem endCapture_capReq (a : CapAnswer) (s : State) : (endCapture a s).capReq = false := rfl
@[simp] theorem endCapture_idx (a : CapAnswer) (s : State) : (endCapture a s).idx = s.idx := rfl
@[simp] theorem endCapture_xo (a : CapAnswer) (s : State) : (endCapture a s).xo = s.xo := rfl
@[simp] theorem endCapture_yo (a : CapAnswer) (s : State) : (endCapture a s).yo = s.yo := rfl
@[simp] theorem endCapture_acc (a : CapAnswer) (s : State) : (endCapture a s).acc = s.acc := rfl
@[simp] theorem endCapture_mem (a : CapAnswer) (s : State) : (endCapture a s).mem = (s.fillRaw a.frame.at).mem := rfl
@[simp] theorem endCapture_legacyUnchecked (a : CapAnswer) (s : State) : (endCapture a s).legacyUnchecked = s.legacyUnchecked := rfl
@[simp] theorem endCapture_cmdMisuseRefused (a : CapAnswer) (s : State) : (endCapture a s).cmdMisuseRefused = s.cmdMisuseRefused := rfl
@[simp] theorem endCapture_inputs (a : CapAnswer) (s : State) : (endCapture a s).inputs = s.inputs := rfl
@[simp] theorem endCapture_capDone (a : CapAnswer) (s : State) : (endCapture a s).capDone = none := rfl
@[simp] theorem endCapture_observed (a : CapAnswer) (s : State) : (endCapture a s).observed = s.observed := rfl
@[simp] theorem endCapture_outRaces (a : CapAnswer) (s : State) : (endCapture a s).outRaces = s.outRaces := rfl
@[simp] theorem endCapture_epoch (a : CapAnswer) (s : State) : (endCapture a s).epoch = s.epoch := rfl
@[simp] theorem endCapture_draws (a : CapAnswer) (s : State) : (endCapture a s).draws = s.draws := rfl

/-! ### `enterConvert` -/

@[simp] theorem enterConvert_phase (a : CapAnswer) (s : State) : (enterConvert a s).phase = .convert := rfl
@[simp] theorem enterConvert_done (a : CapAnswer) (s : State) : (enterConvert a s).done = s.done := rfl
@[simp] theorem enterConvert_code (a : CapAnswer) (s : State) : (enterConvert a s).code = s.code := rfl
@[simp] theorem enterConvert_cmdW (a : CapAnswer) (s : State) : (enterConvert a s).cmdW = s.cmdW := rfl
@[simp] theorem enterConvert_cmdH (a : CapAnswer) (s : State) : (enterConvert a s).cmdH = s.cmdH := rfl
@[simp] theorem enterConvert_cmdCh (a : CapAnswer) (s : State) : (enterConvert a s).cmdCh = s.cmdCh := rfl
@[simp] theorem enterConvert_capReq (a : CapAnswer) (s : State) : (enterConvert a s).capReq = false := rfl
@[simp] theorem enterConvert_idx (a : CapAnswer) (s : State) : (enterConvert a s).idx = s.idx := rfl
@[simp] theorem enterConvert_xo (a : CapAnswer) (s : State) : (enterConvert a s).xo = s.xo := rfl
@[simp] theorem enterConvert_yo (a : CapAnswer) (s : State) : (enterConvert a s).yo = s.yo := rfl
@[simp] theorem enterConvert_acc (a : CapAnswer) (s : State) : (enterConvert a s).acc = s.acc := rfl
@[simp] theorem enterConvert_mem (a : CapAnswer) (s : State) : (enterConvert a s).mem = (s.fillRaw a.frame.at).mem := rfl
@[simp] theorem enterConvert_legacyUnchecked (a : CapAnswer) (s : State) : (enterConvert a s).legacyUnchecked = s.legacyUnchecked := rfl
@[simp] theorem enterConvert_cmdMisuseRefused (a : CapAnswer) (s : State) : (enterConvert a s).cmdMisuseRefused = s.cmdMisuseRefused := rfl
@[simp] theorem enterConvert_inputs (a : CapAnswer) (s : State) : (enterConvert a s).inputs = s.inputs := rfl
@[simp] theorem enterConvert_capDone (a : CapAnswer) (s : State) : (enterConvert a s).capDone = none := rfl
@[simp] theorem enterConvert_observed (a : CapAnswer) (s : State) : (enterConvert a s).observed = s.observed := rfl
@[simp] theorem enterConvert_outRaces (a : CapAnswer) (s : State) : (enterConvert a s).outRaces = s.outRaces := rfl
@[simp] theorem enterConvert_epoch (a : CapAnswer) (s : State) : (enterConvert a s).epoch = s.epoch := rfl
@[simp] theorem enterConvert_draws (a : CapAnswer) (s : State) : (enterConvert a s).draws = s.draws := rfl

/-! ### `converted` -/

@[simp] theorem converted_phase (s : State) : (s.converted).phase = .resample := rfl
@[simp] theorem converted_done (s : State) : (s.converted).done = s.done := rfl
@[simp] theorem converted_code (s : State) : (s.converted).code = s.code := rfl
@[simp] theorem converted_cmdW (s : State) : (s.converted).cmdW = s.cmdW := rfl
@[simp] theorem converted_cmdH (s : State) : (s.converted).cmdH = s.cmdH := rfl
@[simp] theorem converted_cmdCh (s : State) : (s.converted).cmdCh = s.cmdCh := rfl
@[simp] theorem converted_capReq (s : State) : (s.converted).capReq = s.capReq := rfl
@[simp] theorem converted_idx (s : State) : (s.converted).idx = BitVec.ofNat 15 (Config.nPix - 1) := rfl
@[simp] theorem converted_xo (s : State) : (s.converted).xo = s.xo := rfl
@[simp] theorem converted_yo (s : State) : (s.converted).yo = s.yo := rfl
@[simp] theorem converted_acc (s : State) : (s.converted).acc = accOf (s.rawAt (Config.nPix - 1)) := rfl
@[simp] theorem converted_mem (s : State) : (s.converted).mem = (s.fillLuma fun i => lumaOf (s.rawAt i)).mem := rfl
@[simp] theorem converted_legacyUnchecked (s : State) : (s.converted).legacyUnchecked = s.legacyUnchecked := rfl
@[simp] theorem converted_cmdMisuseRefused (s : State) : (s.converted).cmdMisuseRefused = s.cmdMisuseRefused := rfl
@[simp] theorem converted_inputs (s : State) : (s.converted).inputs = s.inputs := rfl
@[simp] theorem converted_capDone (s : State) : (s.converted).capDone = s.capDone := rfl
@[simp] theorem converted_observed (s : State) : (s.converted).observed = s.observed := rfl
@[simp] theorem converted_outRaces (s : State) : (s.converted).outRaces = s.outRaces := rfl
@[simp] theorem converted_epoch (s : State) : (s.converted).epoch = s.epoch := rfl
@[simp] theorem converted_draws (s : State) : (s.converted).draws = s.draws := rfl

/-! ### `sampled` -/

@[simp] theorem sampled_phase (s : State) : (s.sampled).phase = s.phase := rfl
@[simp] theorem sampled_done (s : State) : (s.sampled).done = s.done := rfl
@[simp] theorem sampled_code (s : State) : (s.sampled).code = s.code := rfl
@[simp] theorem sampled_cmdW (s : State) : (s.sampled).cmdW = s.cmdW := rfl
@[simp] theorem sampled_cmdH (s : State) : (s.sampled).cmdH = s.cmdH := rfl
@[simp] theorem sampled_cmdCh (s : State) : (s.sampled).cmdCh = s.cmdCh := rfl
@[simp] theorem sampled_capReq (s : State) : (s.sampled).capReq = s.capReq := rfl
@[simp] theorem sampled_idx (s : State) : (s.sampled).idx = s.idx := rfl
@[simp] theorem sampled_xo (s : State) : (s.sampled).xo = BitVec.ofNat 5 (Config.outW - 1) := rfl
@[simp] theorem sampled_yo (s : State) : (s.sampled).yo = BitVec.ofNat 5 (Config.outH - 1) := rfl
@[simp] theorem sampled_acc (s : State) : (s.sampled).acc = s.acc := rfl
@[simp] theorem sampled_mem (s : State) : (s.sampled).mem = (s.fillOut s.resampled).mem := rfl
@[simp] theorem sampled_legacyUnchecked (s : State) : (s.sampled).legacyUnchecked = s.legacyUnchecked := rfl
@[simp] theorem sampled_cmdMisuseRefused (s : State) : (s.sampled).cmdMisuseRefused = s.cmdMisuseRefused := rfl
@[simp] theorem sampled_inputs (s : State) : (s.sampled).inputs = s.inputs := rfl
@[simp] theorem sampled_capDone (s : State) : (s.sampled).capDone = s.capDone := rfl
@[simp] theorem sampled_observed (s : State) : (s.sampled).observed = s.observed := rfl
@[simp] theorem sampled_outRaces (s : State) : (s.sampled).outRaces = s.outRaces := rfl
@[simp] theorem sampled_epoch (s : State) : (s.sampled).epoch = s.epoch := rfl
@[simp] theorem sampled_draws (s : State) : (s.sampled).draws = s.draws + 1 := rfl

/-! ### `putRaw` -/

@[simp] theorem putRaw_phase (s : State) (i : Nat) (v : Pixel) : (s.putRaw i v).phase = s.phase := rfl
@[simp] theorem putRaw_done (s : State) (i : Nat) (v : Pixel) : (s.putRaw i v).done = s.done := rfl
@[simp] theorem putRaw_code (s : State) (i : Nat) (v : Pixel) : (s.putRaw i v).code = s.code := rfl
@[simp] theorem putRaw_cmdW (s : State) (i : Nat) (v : Pixel) : (s.putRaw i v).cmdW = s.cmdW := rfl
@[simp] theorem putRaw_cmdH (s : State) (i : Nat) (v : Pixel) : (s.putRaw i v).cmdH = s.cmdH := rfl
@[simp] theorem putRaw_cmdCh (s : State) (i : Nat) (v : Pixel) : (s.putRaw i v).cmdCh = s.cmdCh := rfl
@[simp] theorem putRaw_capReq (s : State) (i : Nat) (v : Pixel) : (s.putRaw i v).capReq = s.capReq := rfl
@[simp] theorem putRaw_idx (s : State) (i : Nat) (v : Pixel) : (s.putRaw i v).idx = s.idx := rfl
@[simp] theorem putRaw_xo (s : State) (i : Nat) (v : Pixel) : (s.putRaw i v).xo = s.xo := rfl
@[simp] theorem putRaw_yo (s : State) (i : Nat) (v : Pixel) : (s.putRaw i v).yo = s.yo := rfl
@[simp] theorem putRaw_acc (s : State) (i : Nat) (v : Pixel) : (s.putRaw i v).acc = s.acc := rfl
@[simp] theorem putRaw_mem (s : State) (i : Nat) (v : Pixel) : (s.putRaw i v).mem = { s.mem with raw := putCell s.mem.raw i v } := rfl
@[simp] theorem putRaw_legacyUnchecked (s : State) (i : Nat) (v : Pixel) : (s.putRaw i v).legacyUnchecked = s.legacyUnchecked := rfl
@[simp] theorem putRaw_cmdMisuseRefused (s : State) (i : Nat) (v : Pixel) : (s.putRaw i v).cmdMisuseRefused = s.cmdMisuseRefused := rfl
@[simp] theorem putRaw_inputs (s : State) (i : Nat) (v : Pixel) : (s.putRaw i v).inputs = s.inputs := rfl
@[simp] theorem putRaw_capDone (s : State) (i : Nat) (v : Pixel) : (s.putRaw i v).capDone = s.capDone := rfl
@[simp] theorem putRaw_observed (s : State) (i : Nat) (v : Pixel) : (s.putRaw i v).observed = s.observed := rfl
@[simp] theorem putRaw_outRaces (s : State) (i : Nat) (v : Pixel) : (s.putRaw i v).outRaces = s.outRaces := rfl
@[simp] theorem putRaw_epoch (s : State) (i : Nat) (v : Pixel) : (s.putRaw i v).epoch = s.epoch := rfl
@[simp] theorem putRaw_draws (s : State) (i : Nat) (v : Pixel) : (s.putRaw i v).draws = s.draws := rfl

/-! ### `putOut` -/

@[simp] theorem putOut_phase (s : State) (i : Nat) (v : Byte) : (s.putOut i v).phase = s.phase := rfl
@[simp] theorem putOut_done (s : State) (i : Nat) (v : Byte) : (s.putOut i v).done = s.done := rfl
@[simp] theorem putOut_code (s : State) (i : Nat) (v : Byte) : (s.putOut i v).code = s.code := rfl
@[simp] theorem putOut_cmdW (s : State) (i : Nat) (v : Byte) : (s.putOut i v).cmdW = s.cmdW := rfl
@[simp] theorem putOut_cmdH (s : State) (i : Nat) (v : Byte) : (s.putOut i v).cmdH = s.cmdH := rfl
@[simp] theorem putOut_cmdCh (s : State) (i : Nat) (v : Byte) : (s.putOut i v).cmdCh = s.cmdCh := rfl
@[simp] theorem putOut_capReq (s : State) (i : Nat) (v : Byte) : (s.putOut i v).capReq = s.capReq := rfl
@[simp] theorem putOut_idx (s : State) (i : Nat) (v : Byte) : (s.putOut i v).idx = s.idx := rfl
@[simp] theorem putOut_xo (s : State) (i : Nat) (v : Byte) : (s.putOut i v).xo = s.xo := rfl
@[simp] theorem putOut_yo (s : State) (i : Nat) (v : Byte) : (s.putOut i v).yo = s.yo := rfl
@[simp] theorem putOut_acc (s : State) (i : Nat) (v : Byte) : (s.putOut i v).acc = s.acc := rfl
@[simp] theorem putOut_mem (s : State) (i : Nat) (v : Byte) : (s.putOut i v).mem = { s.mem with out := putCell s.mem.out i v } := rfl
@[simp] theorem putOut_legacyUnchecked (s : State) (i : Nat) (v : Byte) : (s.putOut i v).legacyUnchecked = s.legacyUnchecked := rfl
@[simp] theorem putOut_cmdMisuseRefused (s : State) (i : Nat) (v : Byte) : (s.putOut i v).cmdMisuseRefused = s.cmdMisuseRefused := rfl
@[simp] theorem putOut_inputs (s : State) (i : Nat) (v : Byte) : (s.putOut i v).inputs = s.inputs := rfl
@[simp] theorem putOut_capDone (s : State) (i : Nat) (v : Byte) : (s.putOut i v).capDone = s.capDone := rfl
@[simp] theorem putOut_observed (s : State) (i : Nat) (v : Byte) : (s.putOut i v).observed = s.observed := rfl
@[simp] theorem putOut_outRaces (s : State) (i : Nat) (v : Byte) : (s.putOut i v).outRaces = s.outRaces := rfl
@[simp] theorem putOut_epoch (s : State) (i : Nat) (v : Byte) : (s.putOut i v).epoch = s.epoch := rfl
@[simp] theorem putOut_draws (s : State) (i : Nat) (v : Byte) : (s.putOut i v).draws = s.draws := rfl

/-! ### `putOutRaced` -/

@[simp] theorem putOutRaced_phase (s : State) (i : Nat) (v : Byte) : (s.putOutRaced i v).phase = s.phase := rfl
@[simp] theorem putOutRaced_done (s : State) (i : Nat) (v : Byte) : (s.putOutRaced i v).done = s.done := rfl
@[simp] theorem putOutRaced_code (s : State) (i : Nat) (v : Byte) : (s.putOutRaced i v).code = s.code := rfl
@[simp] theorem putOutRaced_cmdW (s : State) (i : Nat) (v : Byte) : (s.putOutRaced i v).cmdW = s.cmdW := rfl
@[simp] theorem putOutRaced_cmdH (s : State) (i : Nat) (v : Byte) : (s.putOutRaced i v).cmdH = s.cmdH := rfl
@[simp] theorem putOutRaced_cmdCh (s : State) (i : Nat) (v : Byte) : (s.putOutRaced i v).cmdCh = s.cmdCh := rfl
@[simp] theorem putOutRaced_capReq (s : State) (i : Nat) (v : Byte) : (s.putOutRaced i v).capReq = s.capReq := rfl
@[simp] theorem putOutRaced_idx (s : State) (i : Nat) (v : Byte) : (s.putOutRaced i v).idx = s.idx := rfl
@[simp] theorem putOutRaced_xo (s : State) (i : Nat) (v : Byte) : (s.putOutRaced i v).xo = s.xo := rfl
@[simp] theorem putOutRaced_yo (s : State) (i : Nat) (v : Byte) : (s.putOutRaced i v).yo = s.yo := rfl
@[simp] theorem putOutRaced_acc (s : State) (i : Nat) (v : Byte) : (s.putOutRaced i v).acc = s.acc := rfl
@[simp] theorem putOutRaced_mem (s : State) (i : Nat) (v : Byte) : (s.putOutRaced i v).mem = (s.putOut i v).mem := rfl
@[simp] theorem putOutRaced_legacyUnchecked (s : State) (i : Nat) (v : Byte) : (s.putOutRaced i v).legacyUnchecked = s.legacyUnchecked := rfl
@[simp] theorem putOutRaced_cmdMisuseRefused (s : State) (i : Nat) (v : Byte) : (s.putOutRaced i v).cmdMisuseRefused = s.cmdMisuseRefused := rfl
@[simp] theorem putOutRaced_inputs (s : State) (i : Nat) (v : Byte) : (s.putOutRaced i v).inputs = s.inputs := rfl
@[simp] theorem putOutRaced_capDone (s : State) (i : Nat) (v : Byte) : (s.putOutRaced i v).capDone = s.capDone := rfl
@[simp] theorem putOutRaced_observed (s : State) (i : Nat) (v : Byte) : (s.putOutRaced i v).observed = s.observed := rfl
@[simp] theorem putOutRaced_outRaces (s : State) (i : Nat) (v : Byte) : (s.putOutRaced i v).outRaces = i :: s.outRaces := rfl
@[simp] theorem putOutRaced_epoch (s : State) (i : Nat) (v : Byte) : (s.putOutRaced i v).epoch = s.epoch := rfl
@[simp] theorem putOutRaced_draws (s : State) (i : Nat) (v : Byte) : (s.putOutRaced i v).draws = s.draws := rfl

/-! ### `withInputs` -/

@[simp] theorem withInputs_phase (s : State) (l : List Input) : (s.withInputs l).phase = s.phase := rfl
@[simp] theorem withInputs_done (s : State) (l : List Input) : (s.withInputs l).done = s.done := rfl
@[simp] theorem withInputs_code (s : State) (l : List Input) : (s.withInputs l).code = s.code := rfl
@[simp] theorem withInputs_cmdW (s : State) (l : List Input) : (s.withInputs l).cmdW = s.cmdW := rfl
@[simp] theorem withInputs_cmdH (s : State) (l : List Input) : (s.withInputs l).cmdH = s.cmdH := rfl
@[simp] theorem withInputs_cmdCh (s : State) (l : List Input) : (s.withInputs l).cmdCh = s.cmdCh := rfl
@[simp] theorem withInputs_capReq (s : State) (l : List Input) : (s.withInputs l).capReq = s.capReq := rfl
@[simp] theorem withInputs_idx (s : State) (l : List Input) : (s.withInputs l).idx = s.idx := rfl
@[simp] theorem withInputs_xo (s : State) (l : List Input) : (s.withInputs l).xo = s.xo := rfl
@[simp] theorem withInputs_yo (s : State) (l : List Input) : (s.withInputs l).yo = s.yo := rfl
@[simp] theorem withInputs_acc (s : State) (l : List Input) : (s.withInputs l).acc = s.acc := rfl
@[simp] theorem withInputs_mem (s : State) (l : List Input) : (s.withInputs l).mem = s.mem := rfl
@[simp] theorem withInputs_legacyUnchecked (s : State) (l : List Input) : (s.withInputs l).legacyUnchecked = s.legacyUnchecked := rfl
@[simp] theorem withInputs_cmdMisuseRefused (s : State) (l : List Input) : (s.withInputs l).cmdMisuseRefused = s.cmdMisuseRefused := rfl
@[simp] theorem withInputs_inputs (s : State) (l : List Input) : (s.withInputs l).inputs = l := rfl
@[simp] theorem withInputs_capDone (s : State) (l : List Input) : (s.withInputs l).capDone = s.capDone := rfl
@[simp] theorem withInputs_observed (s : State) (l : List Input) : (s.withInputs l).observed = s.observed := rfl
@[simp] theorem withInputs_outRaces (s : State) (l : List Input) : (s.withInputs l).outRaces = s.outRaces := rfl
@[simp] theorem withInputs_epoch (s : State) (l : List Input) : (s.withInputs l).epoch = s.epoch := rfl
@[simp] theorem withInputs_draws (s : State) (l : List Input) : (s.withInputs l).draws = s.draws := rfl

/-! ### `presentAnswer` -/

@[simp] theorem presentAnswer_phase (s : State) (a : CapAnswer) : (s.presentAnswer a).phase = s.phase := rfl
@[simp] theorem presentAnswer_done (s : State) (a : CapAnswer) : (s.presentAnswer a).done = s.done := rfl
@[simp] theorem presentAnswer_code (s : State) (a : CapAnswer) : (s.presentAnswer a).code = s.code := rfl
@[simp] theorem presentAnswer_cmdW (s : State) (a : CapAnswer) : (s.presentAnswer a).cmdW = s.cmdW := rfl
@[simp] theorem presentAnswer_cmdH (s : State) (a : CapAnswer) : (s.presentAnswer a).cmdH = s.cmdH := rfl
@[simp] theorem presentAnswer_cmdCh (s : State) (a : CapAnswer) : (s.presentAnswer a).cmdCh = s.cmdCh := rfl
@[simp] theorem presentAnswer_capReq (s : State) (a : CapAnswer) : (s.presentAnswer a).capReq = s.capReq := rfl
@[simp] theorem presentAnswer_idx (s : State) (a : CapAnswer) : (s.presentAnswer a).idx = s.idx := rfl
@[simp] theorem presentAnswer_xo (s : State) (a : CapAnswer) : (s.presentAnswer a).xo = s.xo := rfl
@[simp] theorem presentAnswer_yo (s : State) (a : CapAnswer) : (s.presentAnswer a).yo = s.yo := rfl
@[simp] theorem presentAnswer_acc (s : State) (a : CapAnswer) : (s.presentAnswer a).acc = s.acc := rfl
@[simp] theorem presentAnswer_mem (s : State) (a : CapAnswer) : (s.presentAnswer a).mem = s.mem := rfl
@[simp] theorem presentAnswer_legacyUnchecked (s : State) (a : CapAnswer) : (s.presentAnswer a).legacyUnchecked = s.legacyUnchecked := rfl
@[simp] theorem presentAnswer_cmdMisuseRefused (s : State) (a : CapAnswer) : (s.presentAnswer a).cmdMisuseRefused = s.cmdMisuseRefused := rfl
@[simp] theorem presentAnswer_inputs (s : State) (a : CapAnswer) : (s.presentAnswer a).inputs = s.inputs := rfl
@[simp] theorem presentAnswer_capDone (s : State) (a : CapAnswer) : (s.presentAnswer a).capDone = some a := rfl
@[simp] theorem presentAnswer_observed (s : State) (a : CapAnswer) : (s.presentAnswer a).observed = s.observed := rfl
@[simp] theorem presentAnswer_outRaces (s : State) (a : CapAnswer) : (s.presentAnswer a).outRaces = s.outRaces := rfl
@[simp] theorem presentAnswer_epoch (s : State) (a : CapAnswer) : (s.presentAnswer a).epoch = s.epoch := rfl
@[simp] theorem presentAnswer_draws (s : State) (a : CapAnswer) : (s.presentAnswer a).draws = s.draws := rfl

/-! ### `observe` -/

@[simp] theorem observe_phase (s : State) (o : Observation) : (s.observe o).phase = s.phase := rfl
@[simp] theorem observe_done (s : State) (o : Observation) : (s.observe o).done = s.done := rfl
@[simp] theorem observe_code (s : State) (o : Observation) : (s.observe o).code = s.code := rfl
@[simp] theorem observe_cmdW (s : State) (o : Observation) : (s.observe o).cmdW = s.cmdW := rfl
@[simp] theorem observe_cmdH (s : State) (o : Observation) : (s.observe o).cmdH = s.cmdH := rfl
@[simp] theorem observe_cmdCh (s : State) (o : Observation) : (s.observe o).cmdCh = s.cmdCh := rfl
@[simp] theorem observe_capReq (s : State) (o : Observation) : (s.observe o).capReq = s.capReq := rfl
@[simp] theorem observe_idx (s : State) (o : Observation) : (s.observe o).idx = s.idx := rfl
@[simp] theorem observe_xo (s : State) (o : Observation) : (s.observe o).xo = s.xo := rfl
@[simp] theorem observe_yo (s : State) (o : Observation) : (s.observe o).yo = s.yo := rfl
@[simp] theorem observe_acc (s : State) (o : Observation) : (s.observe o).acc = s.acc := rfl
@[simp] theorem observe_mem (s : State) (o : Observation) : (s.observe o).mem = s.mem := rfl
@[simp] theorem observe_legacyUnchecked (s : State) (o : Observation) : (s.observe o).legacyUnchecked = s.legacyUnchecked := rfl
@[simp] theorem observe_cmdMisuseRefused (s : State) (o : Observation) : (s.observe o).cmdMisuseRefused = s.cmdMisuseRefused := rfl
@[simp] theorem observe_inputs (s : State) (o : Observation) : (s.observe o).inputs = s.inputs := rfl
@[simp] theorem observe_capDone (s : State) (o : Observation) : (s.observe o).capDone = s.capDone := rfl
@[simp] theorem observe_observed (s : State) (o : Observation) : (s.observe o).observed = o :: s.observed := rfl
@[simp] theorem observe_outRaces (s : State) (o : Observation) : (s.observe o).outRaces = s.outRaces := rfl
@[simp] theorem observe_epoch (s : State) (o : Observation) : (s.observe o).epoch = s.epoch := rfl
@[simp] theorem observe_draws (s : State) (o : Observation) : (s.observe o).draws = s.draws := rfl

/-! ### `drawn` -/

@[simp] theorem drawn_phase (s : State) : (s.drawn).phase = s.phase := rfl
@[simp] theorem drawn_done (s : State) : (s.drawn).done = s.done := rfl
@[simp] theorem drawn_code (s : State) : (s.drawn).code = s.code := rfl
@[simp] theorem drawn_cmdW (s : State) : (s.drawn).cmdW = s.cmdW := rfl
@[simp] theorem drawn_cmdH (s : State) : (s.drawn).cmdH = s.cmdH := rfl
@[simp] theorem drawn_cmdCh (s : State) : (s.drawn).cmdCh = s.cmdCh := rfl
@[simp] theorem drawn_capReq (s : State) : (s.drawn).capReq = s.capReq := rfl
@[simp] theorem drawn_idx (s : State) : (s.drawn).idx = s.idx := rfl
@[simp] theorem drawn_xo (s : State) : (s.drawn).xo = s.xo := rfl
@[simp] theorem drawn_yo (s : State) : (s.drawn).yo = s.yo := rfl
@[simp] theorem drawn_acc (s : State) : (s.drawn).acc = s.acc := rfl
@[simp] theorem drawn_mem (s : State) : (s.drawn).mem = s.mem := rfl
@[simp] theorem drawn_legacyUnchecked (s : State) : (s.drawn).legacyUnchecked = s.legacyUnchecked := rfl
@[simp] theorem drawn_cmdMisuseRefused (s : State) : (s.drawn).cmdMisuseRefused = s.cmdMisuseRefused := rfl
@[simp] theorem drawn_inputs (s : State) : (s.drawn).inputs = s.inputs := rfl
@[simp] theorem drawn_capDone (s : State) : (s.drawn).capDone = s.capDone := rfl
@[simp] theorem drawn_observed (s : State) : (s.drawn).observed = s.observed := rfl
@[simp] theorem drawn_outRaces (s : State) : (s.drawn).outRaces = s.outRaces := rfl
@[simp] theorem drawn_epoch (s : State) : (s.drawn).epoch = s.epoch := rfl
@[simp] theorem drawn_draws (s : State) : (s.drawn).draws = s.draws + 1 := rfl

/-! ### `afterReset` -/

@[simp] theorem afterReset_phase (s : State) : (s.afterReset).phase = .idle := rfl
@[simp] theorem afterReset_done (s : State) : (s.afterReset).done = false := rfl
@[simp] theorem afterReset_code (s : State) : (s.afterReset).code = .ok := rfl
@[simp] theorem afterReset_cmdW (s : State) : (s.afterReset).cmdW = 0 := rfl
@[simp] theorem afterReset_cmdH (s : State) : (s.afterReset).cmdH = 0 := rfl
@[simp] theorem afterReset_cmdCh (s : State) : (s.afterReset).cmdCh = 0 := rfl
@[simp] theorem afterReset_capReq (s : State) : (s.afterReset).capReq = false := rfl
@[simp] theorem afterReset_idx (s : State) : (s.afterReset).idx = 0 := rfl
@[simp] theorem afterReset_xo (s : State) : (s.afterReset).xo = 0 := rfl
@[simp] theorem afterReset_yo (s : State) : (s.afterReset).yo = 0 := rfl
@[simp] theorem afterReset_acc (s : State) : (s.afterReset).acc = 0 := rfl
@[simp] theorem afterReset_mem (s : State) : (s.afterReset).mem = memAfterReset s := rfl
@[simp] theorem afterReset_legacyUnchecked (s : State) : (s.afterReset).legacyUnchecked = s.legacyUnchecked := rfl
@[simp] theorem afterReset_cmdMisuseRefused (s : State) : (s.afterReset).cmdMisuseRefused = s.cmdMisuseRefused := rfl
@[simp] theorem afterReset_inputs (s : State) : (s.afterReset).inputs = s.inputs := rfl
@[simp] theorem afterReset_capDone (s : State) : (s.afterReset).capDone = none := rfl
@[simp] theorem afterReset_observed (s : State) : (s.afterReset).observed = s.observed := rfl
@[simp] theorem afterReset_outRaces (s : State) : (s.afterReset).outRaces = [] := rfl
@[simp] theorem afterReset_epoch (s : State) : (s.afterReset).epoch = s.epoch + 1 := rfl
@[simp] theorem afterReset_draws (s : State) : (s.afterReset).draws = s.draws + 1 := rfl

end Sys2Proof.Machine
end

