-- ==== Sys2Proof/Laws/Memory.lean ====
section
/-! SUPPORT. The laws of the buffers: what a read gives after a write or a fill, and that every buffer operation keeps
the canonical form. -/

namespace Sys2Proof.Machine

variable {w : Nat}

/-! ### Reading after writing -/

@[simp] theorem cellAt?_nil (i : Nat) : cellAt? ([] : List (Nat × BitVec w)) i = none := rfl

theorem cellAt?_cons (j : Nat) (v : BitVec w) (rest : List (Nat × BitVec w)) (i : Nat) :
    cellAt? ((j, v) :: rest) i = if j = i then some v else cellAt? rest i := rfl

@[simp] theorem cellAt?_putCell_self (cells : List (Nat × BitVec w)) (i : Nat) (v : BitVec w) :
    cellAt? (putCell cells i v) i = some v := by
  induction cells with
  | nil => simp [putCell, cellAt?_cons]
  | cons c rest ih =>
    obtain ⟨j, u⟩ := c
    simp only [putCell]
    split
    · simp [cellAt?_cons]
    · split
      · simp [cellAt?_cons]
      · rw [cellAt?_cons, if_neg (by omega), ih]

theorem cellAt?_putCell_other (cells : List (Nat × BitVec w)) {i k : Nat} (v : BitVec w) (h : k ≠ i) :
    cellAt? (putCell cells i v) k = cellAt? cells k := by
  induction cells with
  | nil => simp [putCell, cellAt?_cons, h.symm]
  | cons c rest ih =>
    obtain ⟨j, u⟩ := c
    simp only [putCell]
    split
    · rw [cellAt?_cons i, if_neg h.symm]
    · split
      · rename_i _ hij
        rw [cellAt?_cons, cellAt?_cons, if_neg h.symm, if_neg (by omega)]
      · rw [cellAt?_cons, cellAt?_cons, ih]

theorem cellAt?_map_mem (f : Nat → BitVec w) (l : List Nat) (i : Nat) :
    cellAt? (l.map fun k => (k, f k)) i = if i ∈ l then some (f i) else none := by
  induction l with
  | nil => simp
  | cons k l ih =>
    rw [List.map_cons, cellAt?_cons, ih]
    by_cases hk : k = i
    · simp [hk]
    · simp [hk, Ne.symm hk]

theorem cellAt?_fillCells (n : Nat) (f : Nat → BitVec w) (i : Nat) :
    cellAt? (fillCells n f) i = if i < n then some (f i) else none := by
  simp [fillCells, cellAt?_map_mem, List.mem_range']

/-! ### The canonical form -/

theorem cellsWf_cons (lo n j : Nat) (v : BitVec w) (rest : List (Nat × BitVec w)) :
    cellsWf lo n ((j, v) :: rest) = true ↔ lo ≤ j ∧ j < n ∧ cellsWf (j + 1) n rest = true := by
  simp [cellsWf, and_assoc]

theorem cellsWf_of_le {lo lo' n : Nat} {cells : List (Nat × BitVec w)} (h : cellsWf lo n cells = true)
    (hle : lo' ≤ lo) : cellsWf lo' n cells = true := by
  cases cells with
  | nil => rfl
  | cons c rest =>
    obtain ⟨j, v⟩ := c
    rw [cellsWf_cons] at h ⊢
    exact ⟨le_trans hle h.1, h.2⟩

theorem cellsWf_putCell {lo n i : Nat} {cells : List (Nat × BitVec w)} (v : BitVec w)
    (h : cellsWf lo n cells = true) (hlo : lo ≤ i) (hi : i < n) :
    cellsWf lo n (putCell cells i v) = true := by
  induction cells generalizing lo with
  | nil => simp [putCell, cellsWf, hlo, hi]
  | cons c rest ih =>
    obtain ⟨j, u⟩ := c
    rw [cellsWf_cons] at h
    simp only [putCell]
    split
    · rw [cellsWf_cons, cellsWf_cons]
      exact ⟨hlo, hi, by omega, h.2⟩
    · split
      · rename_i _ hij
        rw [cellsWf_cons]
        exact ⟨hlo, hi, hij ▸ h.2.2⟩
      · rw [cellsWf_cons]
        exact ⟨h.1, h.2.1, ih h.2.2 (by omega)⟩

theorem cellsWf_fillFrom (f : Nat → BitVec w) (lo k n : Nat) (h : lo + k ≤ n) :
    cellsWf lo n ((List.range' lo k).map fun i => (i, f i)) = true := by
  induction k generalizing lo with
  | zero => rfl
  | succ k ih =>
    rw [List.range'_succ, List.map_cons, cellsWf_cons]
    exact ⟨le_refl _, by omega, ih (lo + 1) (by omega)⟩

theorem cellsWf_fillCells (n : Nat) (f : Nat → BitVec w) : cellsWf 0 n (fillCells n f) = true := by
  exact cellsWf_fillFrom f 0 n n (by omega)

theorem memory_wf_iff (m : Memory) :
    m.wf = true ↔ cellsWf 0 Config.nPix m.raw = true ∧ cellsWf 0 Config.nPix m.luma = true ∧
      cellsWf 0 Config.nOut m.out = true := by
  simp [Memory.wf, and_assoc]

theorem reset_mem_wf : State.reset.mem.wf = true := rfl

theorem fillRaw_wf {s : State} (h : s.mem.wf = true) (f : Nat → Pixel) : (s.fillRaw f).mem.wf = true := by
  rw [memory_wf_iff] at h ⊢
  exact ⟨cellsWf_fillCells _ _, h.2⟩

theorem fillLuma_wf {s : State} (h : s.mem.wf = true) (f : Nat → Byte) : (s.fillLuma f).mem.wf = true := by
  rw [memory_wf_iff] at h ⊢
  exact ⟨h.1, cellsWf_fillCells _ _, h.2.2⟩

theorem fillOut_wf {s : State} (h : s.mem.wf = true) (f : Nat → Byte) : (s.fillOut f).mem.wf = true := by
  rw [memory_wf_iff] at h ⊢
  exact ⟨h.1, h.2.1, cellsWf_fillCells _ _⟩

theorem putRaw_wf {s : State} (h : s.mem.wf = true) {i : Nat} (hi : i < Config.nPix) (v : Pixel) :
    (s.putRaw i v).mem.wf = true := by
  rw [memory_wf_iff] at h ⊢
  exact ⟨cellsWf_putCell v h.1 (Nat.zero_le _) hi, h.2⟩

theorem putOut_wf {s : State} (h : s.mem.wf = true) {i : Nat} (hi : i < Config.nOut) (v : Byte) :
    (s.putOut i v).mem.wf = true := by
  rw [memory_wf_iff] at h ⊢
  exact ⟨h.1, h.2.1, cellsWf_putCell v h.2.2 (Nat.zero_le _) hi⟩

theorem memAfterReset_wf {s : State} (h : s.mem.wf = true) : (memAfterReset s).wf = true := by
  rw [memory_wf_iff] at h ⊢
  refine ⟨rfl, ?_, ?_⟩
  · simp only [memAfterReset]
    split
    · exact cellsWf_fillCells _ _
    · rfl
  · simp only [memAfterReset]
    split
    · exact cellsWf_fillCells _ _
    · exact h.2.2

/-! ### Elements of the three buffers -/

theorem rawAt_congr {s t : State} (hm : s.mem.raw = t.mem.raw) (he : s.epoch = t.epoch) (i : Nat) :
    s.rawAt i = t.rawAt i := by simp [State.rawAt, hm, he]

theorem lumaAt_congr {s t : State} (hm : s.mem.luma = t.mem.luma) (he : s.epoch = t.epoch) (i : Nat) :
    s.lumaAt i = t.lumaAt i := by simp [State.lumaAt, hm, he]

theorem outAt_congr {s t : State} (hm : s.mem.out = t.mem.out) (i : Nat) : s.outAt i = t.outAt i := by
  simp [State.outAt, hm]

theorem rawAt_fillRaw (s : State) (f : Nat → Pixel) {i : Nat} (hi : i < Config.nPix) :
    (s.fillRaw f).rawAt i = f i := by
  simp only [State.rawAt, fillRaw_mem, cellAt?_fillCells, if_pos hi, Option.getD_some]

theorem lumaAt_fillLuma (s : State) (f : Nat → Byte) {i : Nat} (hi : i < Config.nPix) :
    (s.fillLuma f).lumaAt i = f i := by
  simp only [State.lumaAt, fillLuma_mem, cellAt?_fillCells, if_pos hi, Option.getD_some]

theorem outAt_fillOut (s : State) (f : Nat → Byte) {j : Nat} (hj : j < Config.nOut) :
    (s.fillOut f).outAt j = f j := by
  simp only [State.outAt, fillOut_mem, cellAt?_fillCells, if_pos hj, Option.getD_some]

@[simp] theorem rawAt_putRaw_self (s : State) (i : Nat) (v : Pixel) : (s.putRaw i v).rawAt i = v := by
  simp [State.rawAt]

theorem rawAt_putRaw_other (s : State) {i k : Nat} (v : Pixel) (h : k ≠ i) :
    (s.putRaw i v).rawAt k = s.rawAt k := by
  simp [State.rawAt, cellAt?_putCell_other _ v h]

@[simp] theorem outAt_putOut_self (s : State) (i : Nat) (v : Byte) : (s.putOut i v).outAt i = v := by
  simp [State.outAt]

theorem outAt_putOut_other (s : State) {i k : Nat} (v : Byte) (h : k ≠ i) :
    (s.putOut i v).outAt k = s.outAt k := by
  simp [State.outAt, cellAt?_putCell_other _ v h]

end Sys2Proof.Machine
end

