-- ==== Sys2Proof/Laws/Exec.lean ====
section
/-! SUPPORT. One lemma per case of each meaning, of the controller's turn and of the step, and the inversion lemmas that
say once everything they can do. Later proofs cite these and unfold none of the meanings. -/

namespace Sys2Proof.Machine

variable {s t : State}

/-! ### GETIMAGE -/

theorem requestWord_eq_some {w h ch : Nat} (hw : (Instr.getimage w h ch).wellFormed = true) :
    requestWord w h ch = some (packCmd w h ch) := by
  simp only [Instr.wellFormed, Bool.and_eq_true, decide_eq_true_eq] at hw
  exact if_pos ⟨hw.1.1, hw.1.2, hw.2⟩

theorem requestWord_eq_none {w h ch : Nat} (hw : (Instr.getimage w h ch).wellFormed = false) :
    requestWord w h ch = none := by
  refine if_neg fun h' => ?_
  simp [Instr.wellFormed, h'.1, h'.2.1, h'.2.2] at hw

theorem execGetimage_idle {w h ch : Nat} (hw : (Instr.getimage w h ch).wellFormed = true) (hs : s.phase = .idle) :
    execGetimage w h ch s = .next (acceptCommand (packCmd w h ch) s) := by
  simp [execGetimage, requestWord_eq_some hw, hs]

theorem execGetimage_busy {w h ch : Nat} (hw : (Instr.getimage w h ch).wellFormed = true) (hs : s.phase ≠ .idle) :
    execGetimage w h ch s = .next s := by
  simp only [execGetimage, requestWord_eq_some hw]
  cases hp : s.phase <;> simp_all

theorem execGetimage_unrepresentable {w h ch : Nat} (hw : (Instr.getimage w h ch).wellFormed = false) :
    execGetimage w h ch s = .refused .unrepresentableRequest := by
  simp [execGetimage, requestWord_eq_none hw]

theorem decodeCmd_wellFormed (c : CmdWord) : (decodeCmd c).wellFormed = true := by
  simp only [decodeCmd, Instr.wellFormed, Bool.and_eq_true, decide_eq_true_eq]
  have := (cmdFieldW c).isLt
  have := (cmdFieldH c).isLt
  have := (cmdFieldCh c).isLt
  omega

/-- Packing the fields of a word gives the word back. -/
theorem packCmd_fields (c : CmdWord) :
    packCmd (cmdFieldW c).toNat (cmdFieldH c).toNat (cmdFieldCh c).toNat = c := by
  apply BitVec.eq_of_getLsbD_eq
  intro i hi
  simp only [packCmd, cmdFieldW, cmdFieldH, cmdFieldCh, BitVec.ofNat_toNat, BitVec.getLsbD_or, BitVec.getLsbD_shiftLeft,
    BitVec.getLsbD_setWidth, BitVec.getLsbD_extractLsb', hi, decide_true, Bool.true_and]
  rcases Nat.lt_or_ge i 12 with h | h
  · simp [h, show i < 24 by omega]
  · rcases Nat.lt_or_ge i 24 with h2 | h2
    · simp [h2, show ¬ i < 12 by omega, show i - 12 < 12 by omega, show 12 + (i - 12) = i by omega,
        show i - 12 < 32 by omega]
    · simp [show ¬ i < 12 by omega, show ¬ i < 24 by omega, show ¬ (i - 12 < 12) by omega,
        show 24 + (i - 24) = i by omega, show i - 24 < 8 by omega, show i - 24 < 32 by omega]

/-! ### CHECK, CAPTURE, CONVERT, RESAMPLE -/

theorem execCheck_pass (h : (s.legacyUnchecked || s.requestSupported) = true) :
    execCheck s = .next (requestCapture s) := if_pos h

theorem execCheck_refuse (h : (s.legacyUnchecked || s.requestSupported) = false) :
    execCheck s = .next (complete .unsupportedResolution s) := by
  simp [execCheck, h]

theorem execCapture_wait (h : s.capDone = none) : execCapture s = .next s := by
  simp [execCapture, h]

theorem execCapture_ok {a : CapAnswer} (h : s.capDone = some a) (hok : (s.legacyUnchecked || a.capOk) = true) :
    execCapture s = .next (enterConvert a s) := by
  simp only [execCapture, h, hok, if_true]

theorem execCapture_fail {a : CapAnswer} (h : s.capDone = some a) (hok : (s.legacyUnchecked || a.capOk) = false) :
    execCapture s = .next (complete .captureFailure (endCapture a s)) := by
  simp [execCapture, h, hok]

theorem enterConvert_rawAt (a : CapAnswer) {i : Nat} (hi : i < Config.nPix) :
    (enterConvert a s).rawAt i = a.frame.at i :=
  rawAt_fillRaw s a.frame.at hi

theorem converted_lumaAt {i : Nat} (hi : i < Config.nPix) : s.converted.lumaAt i = lumaOf (s.rawAt i) :=
  lumaAt_fillLuma s _ hi

theorem converted_rawAt (i : Nat) : s.converted.rawAt i = s.rawAt i := rfl

theorem converted_outAt (j : Nat) : s.converted.outAt j = s.outAt j := rfl

theorem sampled_outAt {j : Nat} (hj : j < Config.nOut) : (complete .ok s.sampled).outAt j = s.resampled j :=
  outAt_fillOut s _ hj

theorem sampled_rawAt (i : Nat) : (complete .ok s.sampled).rawAt i = s.rawAt i := rfl

theorem sampled_lumaAt (i : Nat) : (complete .ok s.sampled).lumaAt i = s.lumaAt i := rfl

theorem resampled_of_not_raced {j : Nat} (hj : j ∉ s.outRaces) : s.resampled j = s.sampleAt j := by
  simp [State.resampled, hj]

theorem resampled_cases (j : Nat) : s.resampled j = s.outAt j ∨ s.resampled j = s.sampleAt j := by
  simp only [State.resampled]
  split
  · exact .inl rfl
  · exact .inr rfl

/-! ### What the command will write -/

theorem commandByte_cases (j : Nat) : s.commandByte j = s.outAt j ∨ s.willWrite j = some (s.commandByte j) := by
  unfold State.commandByte
  cases s.willWrite j
  · exact .inl rfl
  · exact .inr rfl

theorem captureWrites_ok {a : CapAnswer} (legacy : Bool) (j : Nat) (rest : List Input)
    (h : (legacy || a.capOk) = true) :
    captureWrites legacy j (.capDone a :: rest) = (turnAhead rest).map fun _ => lumaOf (a.frame.at (srcAddrOf j)) := by
  simp only [captureWrites, answerAhead, h, if_true]

theorem captureWrites_fail {a : CapAnswer} (legacy : Bool) (j : Nat) (rest : List Input)
    (h : (legacy || a.capOk) = false) : captureWrites legacy j (.capDone a :: rest) = none := by
  simp [captureWrites, answerAhead, h]

/-- A move other than an answer or a reset does not change what a command in CAPTURE will write. -/
theorem captureWrites_skip {e : Input} (legacy : Bool) (j : Nat) (rest : List Input) (h : e.endsCapture = false) :
    captureWrites legacy j (e :: rest) = captureWrites legacy j rest := by
  cases e <;> simp_all [captureWrites, answerAhead, Input.endsCapture]

theorem srcAddrOf_lt {j : Nat} (h : j < Config.nOut) : srcAddrOf j < Config.nPix := by
  simp only [srcAddrOf, srcAddr, srcX, srcY, srcCoord, Config.outW, Config.outH, Config.srcW, Config.srcH, Config.nPix,
    Config.nOut] at h ⊢
  omega

/-! ### Status -/

theorem busy_iff : s.busy = true ↔ s.phase ≠ .idle := by
  simp only [State.busy]
  cases s.phase <;> decide

theorem not_busy_iff : s.busy = false ↔ s.phase = .idle := by
  simp only [State.busy]
  cases s.phase <;> decide

theorem statusWord_of {p : Phase} {d : Bool} {c : Code} (hp : s.phase = p) (hd : s.done = d) (hc : s.code = c) :
    s.statusWord = 0#28 ++ c.bits ++ BitVec.ofBool d ++ BitVec.ofBool (decide (p.bits ≠ 0#3)) := by
  simp only [State.statusWord, State.busy, hp, hd, hc]

/-! ### The controller's turn -/

theorem controllerTurn_idle (h : s.phase = .idle) : controllerTurn s = .next s := by
  unfold controllerTurn; rw [h]; rfl

theorem controllerTurn_check (h : s.phase = .check) : controllerTurn s = execCheck s := by
  unfold controllerTurn; rw [h]; rfl

theorem controllerTurn_capture (h : s.phase = .capture) : controllerTurn s = execCapture s := by
  unfold controllerTurn; rw [h]; rfl

theorem controllerTurn_convert (h : s.phase = .convert) : controllerTurn s = .next s.converted := by
  unfold controllerTurn; rw [h]; rfl

theorem controllerTurn_resample (h : s.phase = .resample) : controllerTurn s = .next (complete .ok s.sampled) := by
  unfold controllerTurn; rw [h]; rfl

/-- Everything a turn of the controller can do: it always ends in a next state, and which one is settled by the phase,
the latches, the parameter and the answer. -/
theorem controllerTurn_cases (s : State) : ∃ t, controllerTurn s = .next t ∧
    ((s.phase = .idle ∧ t = s) ∨
     (s.phase = .check ∧ (s.legacyUnchecked || s.requestSupported) = true ∧ t = requestCapture s) ∨
     (s.phase = .check ∧ (s.legacyUnchecked || s.requestSupported) = false ∧
       t = complete .unsupportedResolution s) ∨
     (s.phase = .capture ∧ s.capDone = none ∧ t = s) ∨
     (s.phase = .capture ∧ ∃ a, s.capDone = some a ∧ (s.legacyUnchecked || a.capOk) = true ∧ t = enterConvert a s) ∨
     (s.phase = .capture ∧ ∃ a, s.capDone = some a ∧ (s.legacyUnchecked || a.capOk) = false ∧
       t = complete .captureFailure (endCapture a s)) ∨
     (s.phase = .convert ∧ t = s.converted) ∨
     (s.phase = .resample ∧ t = complete .ok s.sampled)) := by
  cases hp : s.phase with
  | idle => exact ⟨s, controllerTurn_idle hp, by simp⟩
  | check =>
    rw [controllerTurn_check hp]
    cases hc : s.legacyUnchecked || s.requestSupported with
    | true => exact ⟨_, execCheck_pass hc, by simp⟩
    | false => exact ⟨_, execCheck_refuse hc, by simp⟩
  | capture =>
    rw [controllerTurn_capture hp]
    cases hd : s.capDone with
    | none => exact ⟨_, execCapture_wait hd, by simp⟩
    | some a =>
      cases hc : s.legacyUnchecked || a.capOk with
      | true =>
        exact ⟨_, execCapture_ok hd hc, .inr (.inr (.inr (.inr (.inl ⟨rfl, a, rfl, hc, rfl⟩))))⟩
      | false =>
        exact ⟨_, execCapture_fail hd hc, .inr (.inr (.inr (.inr (.inr (.inl ⟨rfl, a, rfl, hc, rfl⟩)))))⟩
  | convert => exact ⟨_, controllerTurn_convert hp, by simp⟩
  | resample => exact ⟨_, controllerTurn_resample hp, by simp⟩

/-! ### The moves of the surroundings -/

theorem runOpWord_cmd_idle (c : CmdWord) (h : s.phase = .idle) :
    runOpWord (.cmd c) s = .next (acceptCommand c s) := by
  have := execGetimage_idle (s := s) (decodeCmd_wellFormed c) h
  rw [packCmd_fields] at this
  exact this

theorem runOpWord_cmd_busy (c : CmdWord) (h : s.phase ≠ .idle) : runOpWord (.cmd c) s = .next s :=
  execGetimage_busy (decodeCmd_wellFormed c) h

/-- The register numbers (20_memory.md R39). -/
theorem hostRegOf_cases (n : Nat) :
    (n = 0 ∧ hostRegOf n = some .cmd) ∨ (n = 1 ∧ hostRegOf n = some .status) ∨ (hostRegOf n = none ∧ 2 ≤ n) := by
  match n with
  | 0 => exact .inl ⟨rfl, rfl⟩
  | 1 => exact .inr (.inl ⟨rfl, rfl⟩)
  | n + 2 => exact .inr (.inr ⟨by simp [hostRegOf, Config.cmdNumber, Config.statusNumber], by omega⟩)

theorem applyInput_cmdWrite_idle (c : CmdWord) (h : s.phase = .idle) :
    applyInput (.cmdWrite c) s = .next (acceptCommand c s) := by
  rw [← runOpWord_cmd_idle c h]
  exact if_neg (by simp [not_busy_iff.2 h])

theorem applyInput_cmdWrite_ignored (c : CmdWord) (h : s.phase ≠ .idle) (hr : s.cmdMisuseRefused = false) :
    applyInput (.cmdWrite c) s = .next s := by
  rw [← runOpWord_cmd_busy c h]
  exact if_neg (by simp [hr])

theorem applyInput_cmdWrite_refused (c : CmdWord) (h : s.phase ≠ .idle) (hr : s.cmdMisuseRefused = true) :
    applyInput (.cmdWrite c) s = .refused .commandWhileBusy :=
  if_pos (by simp [hr, busy_iff.2 h])

theorem applyInput_statusWrite (v : CmdWord) : applyInput (.statusWrite v) s = .next s := rfl

theorem applyInput_cmdRead_answered (hr : s.cmdMisuseRefused = false) :
    applyInput .cmdRead s = .next (s.observe (.cmd (Config.cmdReadValue s.draws))).drawn :=
  if_neg (by simp [hr])

theorem applyInput_cmdRead_refused (hr : s.cmdMisuseRefused = true) : applyInput .cmdRead s = .refused .readOfCmd :=
  if_pos hr

theorem applyInput_statusRead : applyInput .statusRead s = .next (s.observe (.status s.statusWord)) := rfl

theorem writeRegister_fault {n : Nat} {v : CmdWord} (h : hostRegOf n = none) :
    writeRegister n v s = .fault (.noSuchRegister n) := by
  simp [writeRegister, h, noSuchReg]

theorem readRegister_fault {n : Nat} (h : hostRegOf n = none) :
    readRegister n s = .fault (.noSuchRegister n) := by
  simp [readRegister, h, noSuchReg]

theorem readOut_idle {i : Nat} (hi : i < Config.nOut) (h : s.phase = .idle) :
    readOut i s = .next (s.observe (.out i (s.outAt i))) := by
  simp [readOut, hi, not_busy_iff.2 h]

theorem readOut_busy {i : Nat} (hi : i < Config.nOut) (h : s.phase ≠ .idle) :
    readOut i s =
      .next (s.observe (.out i (if Config.raceChoice s.draws i then s.outAt i else s.commandByte i))).drawn := by
  simp [readOut, hi, busy_iff.2 h]

theorem readOut_fault {i : Nat} (hi : ¬ i < Config.nOut) : readOut i s = .fault (.noSuchElement .out i) := by
  simp only [readOut, if_neg hi]

theorem writeOut_idle {i : Nat} {v : Byte} (hi : i < Config.nOut) (h : s.phase = .idle) :
    writeOut i v s = .next (s.putOut i v) := by
  simp [writeOut, hi, not_busy_iff.2 h]

theorem writeOut_busy {i : Nat} {v : Byte} (hi : i < Config.nOut) (h : s.phase ≠ .idle) :
    writeOut i v s = .next (s.putOutRaced i v) := by
  simp [writeOut, hi, busy_iff.2 h]

theorem writeOut_fault {i : Nat} {v : Byte} (hi : ¬ i < Config.nOut) :
    writeOut i v s = .fault (.noSuchElement .out i) := by
  simp only [writeOut, if_neg hi]

theorem writeRaw_capture {i : Nat} {v : Pixel} (hc : s.capReq = true) (hi : i < Config.nPix) :
    writeRaw i v s = .next (s.putRaw i v) := by
  simp [writeRaw, hc, hi]

theorem writeRaw_fault {i : Nat} {v : Pixel} (hc : s.capReq = true) (hi : ¬ i < Config.nPix) :
    writeRaw i v s = .fault (.noSuchElement .raw i) := by
  simp only [writeRaw, hc, if_true, if_neg hi]

theorem writeRaw_refused {i : Nat} {v : Pixel} (hc : s.capReq = false) :
    writeRaw i v s = .refused .frameSourceOutsideCapture := by
  simp [writeRaw, hc]

theorem applyInput_capDone {a : CapAnswer} (hc : s.capReq = true) :
    applyInput (.capDone a) s = controllerTurn (s.presentAnswer a) := by
  simp only [applyInput, hc, if_true]

theorem applyInput_capDone_ignored {a : CapAnswer} (hc : s.capReq = false) : applyInput (.capDone a) s = .next s := by
  simp [applyInput, hc]

/-- Everything one move can do when it ends in a next state. -/
theorem applyInput_cases {e : Input} (h : applyInput e s = .next t) :
    (e = .turn ∧ controllerTurn s = .next t) ∨
    (∃ c, e = .cmdWrite c ∧ s.phase = .idle ∧ t = acceptCommand c s) ∨
    (∃ c, e = .cmdWrite c ∧ s.phase ≠ .idle ∧ s.cmdMisuseRefused = false ∧ t = s) ∨
    (e = .cmdRead ∧ s.cmdMisuseRefused = false ∧ t = (s.observe (.cmd (Config.cmdReadValue s.draws))).drawn) ∨
    (e = .statusRead ∧ t = s.observe (.status s.statusWord)) ∨
    (∃ v, e = .statusWrite v ∧ t = s) ∨
    (∃ i, e = .outRead i ∧ i < Config.nOut ∧ s.phase = .idle ∧ t = s.observe (.out i (s.outAt i))) ∨
    (∃ i, e = .outRead i ∧ i < Config.nOut ∧ s.phase ≠ .idle ∧
      t = (s.observe (.out i (if Config.raceChoice s.draws i then s.outAt i else s.commandByte i))).drawn) ∨
    (∃ i v, e = .outWrite i v ∧ i < Config.nOut ∧ s.phase = .idle ∧ t = s.putOut i v) ∨
    (∃ i v, e = .outWrite i v ∧ i < Config.nOut ∧ s.phase ≠ .idle ∧ t = s.putOutRaced i v) ∨
    (e = .reset ∧ t = s.afterReset) ∨
    (∃ i v, e = .rawWrite i v ∧ i < Config.nPix ∧ s.capReq = true ∧ t = s.putRaw i v) ∨
    (∃ a, e = .capDone a ∧ s.capReq = true ∧ controllerTurn (s.presentAnswer a) = .next t) ∨
    (∃ a, e = .capDone a ∧ s.capReq = false ∧ t = s) := by
  cases e with
  | turn => exact .inl ⟨rfl, h⟩
  | regWrite n v =>
    rcases hostRegOf_cases n with ⟨rfl, _⟩ | ⟨rfl, _⟩ | ⟨hn, _⟩
    · by_cases hp : s.phase = .idle
      · cases (applyInput_cmdWrite_idle v hp).symm.trans h
        exact .inr (.inl ⟨v, rfl, hp, rfl⟩)
      · cases hr : s.cmdMisuseRefused with
        | true => exact nomatch (applyInput_cmdWrite_refused v hp hr).symm.trans h
        | false =>
          cases (applyInput_cmdWrite_ignored v hp hr).symm.trans h
          exact .inr (.inr (.inl ⟨v, rfl, hp, rfl, rfl⟩))
    · cases h; simp [Config.cmdNumber]
    · exact nomatch (writeRegister_fault hn).symm.trans h
  | regRead n =>
    rcases hostRegOf_cases n with ⟨rfl, _⟩ | ⟨rfl, _⟩ | ⟨hn, _⟩
    · cases hr : s.cmdMisuseRefused with
      | true => exact nomatch (applyInput_cmdRead_refused hr).symm.trans h
      | false =>
        cases (applyInput_cmdRead_answered hr).symm.trans h
        exact .inr (.inr (.inr (.inl ⟨rfl, rfl, rfl⟩)))
    · cases h; simp [Config.cmdNumber]
    · exact nomatch (readRegister_fault hn).symm.trans h
  | outRead i =>
    by_cases hi : i < Config.nOut
    · by_cases hp : s.phase = .idle
      · have := (readOut_idle hi hp).symm.trans h
        cases this; simp [hi, hp]
      · have := (readOut_busy hi hp).symm.trans h
        cases this; simp [hi, hp]
    · exact nomatch (readOut_fault hi).symm.trans h
  | outWrite i v =>
    by_cases hi : i < Config.nOut
    · by_cases hp : s.phase = .idle
      · have := (writeOut_idle hi hp).symm.trans h
        cases this; simp [hi, hp]
      · have := (writeOut_busy hi hp).symm.trans h
        cases this; simp [hi, hp]
    · exact nomatch (writeOut_fault hi).symm.trans h
  | reset => cases h; simp
  | rawWrite i v =>
    cases hc : s.capReq with
    | false => exact nomatch (writeRaw_refused hc).symm.trans h
    | true =>
      by_cases hi : i < Config.nPix
      · have := (writeRaw_capture hc hi).symm.trans h
        cases this; simp [hi]
      · exact nomatch (writeRaw_fault hc hi).symm.trans h
  | capDone a =>
    cases hc : s.capReq with
    | false =>
      cases (applyInput_capDone_ignored hc).symm.trans h
      simp
    | true =>
      rw [applyInput_capDone hc] at h
      simp [h]

/-! ### The step -/

theorem step_nil (h : s.inputs = []) : step s = controllerTurn s := by
  simp [step, h]

theorem step_cons {e : Input} {rest : List Input} (h : s.inputs = e :: rest) :
    step s = applyInput e (s.withInputs rest) := by
  simp [step, h]

/-- A step is the controller's turn when nothing is left to happen, else the next move. -/
theorem step_cases (h : step s = .next t) :
    (s.inputs = [] ∧ controllerTurn s = .next t) ∨
    (∃ e rest, s.inputs = e :: rest ∧ applyInput e (s.withInputs rest) = .next t) := by
  cases hi : s.inputs with
  | nil => exact .inl ⟨rfl, (step_nil hi).symm.trans h⟩
  | cons e rest => exact .inr ⟨e, rest, rfl, (step_cons hi).symm.trans h⟩

end Sys2Proof.Machine
end

