-- ==== Sys2Proof/Laws/Fields.lean ====
section
/-! SUPPORT. What the bit fields are as numbers: of a command word, of a pixel, and of the latched request. -/

namespace Sys2Proof.Machine

/-! ### Command words -/

theorem cmdFieldW_toNat (c : CmdWord) : (cmdFieldW c).toNat = c.toNat % 4096 := by
  simp [cmdFieldW, BitVec.extractLsb'_toNat]

theorem cmdFieldH_toNat (c : CmdWord) : (cmdFieldH c).toNat = c.toNat / 4096 % 4096 := by
  simp [cmdFieldH, BitVec.extractLsb'_toNat, Nat.shiftRight_eq_div_pow]

theorem cmdFieldCh_toNat (c : CmdWord) : (cmdFieldCh c).toNat = c.toNat / 16777216 := by
  simp only [cmdFieldCh, BitVec.extractLsb'_toNat, Nat.shiftRight_eq_div_pow]
  omega

/-- A packed word is the sum of its fields, each at its place. -/
theorem packCmd_toNat {w h ch : Nat} (hw : w ≤ 4095) (hh : h ≤ 4095) (hc : ch ≤ 255) :
    (packCmd w h ch).toNat = ch * 16777216 + h * 4096 + w := by
  have e1 : (h <<< 12 ||| w) = h * 4096 + w := by
    rw [← Nat.shiftLeft_add_eq_or_of_lt (show w < 2 ^ 12 by omega), Nat.shiftLeft_eq]
  have e2 : (ch <<< 24 ||| (h * 4096 + w)) = ch * 16777216 + (h * 4096 + w) := by
    rw [← Nat.shiftLeft_add_eq_or_of_lt (show h * 4096 + w < 2 ^ 24 by omega), Nat.shiftLeft_eq]
  simp only [packCmd, BitVec.toNat_or, BitVec.toNat_shiftLeft, BitVec.toNat_ofNat]
  rw [Nat.mod_eq_of_lt (show ch < 2 ^ 32 by omega), Nat.mod_eq_of_lt (show h < 2 ^ 32 by omega),
    Nat.mod_eq_of_lt (show w < 2 ^ 32 by omega),
    Nat.mod_eq_of_lt (show ch <<< 24 < 2 ^ 32 by rw [Nat.shiftLeft_eq]; omega),
    Nat.mod_eq_of_lt (show h <<< 12 < 2 ^ 32 by rw [Nat.shiftLeft_eq]; omega), Nat.or_assoc, e1, e2]
  omega

/-- The one word of the supported request. -/
theorem fields_eq_supported_iff (c : CmdWord) :
    (c.toNat % 4096 = 32 ∧ c.toNat / 4096 % 4096 = 32 ∧ c.toNat / 16777216 = 1) ↔ c = 0x01020020#32 := by
  rw [← BitVec.toNat_inj]
  simp only [BitVec.toNat_ofNat]
  omega

theorem requestSupported_iff (s : State) :
    s.requestSupported = true ↔ s.cmdW = 32#12 ∧ s.cmdH = 32#12 ∧ s.cmdCh = 1#8 := by
  simp only [State.requestSupported, Bool.and_eq_true, decide_eq_true_eq, ← BitVec.toNat_inj]
  simp [and_assoc]

theorem requestSupported_acceptCommand (c : CmdWord) (s : State) :
    (acceptCommand c s).requestSupported = true ↔ c = 0x01020020#32 := by
  rw [← fields_eq_supported_iff]
  simp [State.requestSupported, cmdFieldW_toNat, cmdFieldH_toNat, cmdFieldCh_toNat, and_assoc]

/-! ### Pixels and channels -/

theorem red5_toNat (p : Pixel) : (red5 p).toNat = p.toNat / 2048 := by
  simp only [red5, BitVec.extractLsb'_toNat, Nat.shiftRight_eq_div_pow]
  omega

theorem green6_toNat (p : Pixel) : (green6 p).toNat = p.toNat / 32 % 64 := by
  simp [green6, BitVec.extractLsb'_toNat, Nat.shiftRight_eq_div_pow]

theorem blue5_toNat (p : Pixel) : (blue5 p).toNat = p.toNat % 32 := by
  simp [blue5, BitVec.extractLsb'_toNat]

theorem normalizeTo8_31_toNat {v : Nat} (h : v ≤ 31) : (normalizeTo8 v 31).toNat = v * 255 / 31 := by
  simp only [normalizeTo8, BitVec.toNat_ofNat]
  omega

theorem normalizeTo8_63_toNat {v : Nat} (h : v ≤ 63) : (normalizeTo8 v 63).toNat = v * 255 / 63 := by
  simp only [normalizeTo8, BitVec.toNat_ofNat]
  omega

/-! ### Coordinates -/

/-- The sample of an output pixel, with its source address written out. -/
theorem sampleAt_pixel (s : State) {x y : Nat} (hx : x < 32) :
    s.sampleAt (y * 32 + x) = s.lumaAt ((y * 144 / 32) * 176 + x * 176 / 32) := by
  have h1 : (y * 32 + x) % 32 = x := by omega
  have h2 : (y * 32 + x) / 32 = y := by omega
  simp [State.sampleAt, srcAddrOf, srcAddr, srcX, srcY, srcCoord, h1, h2]

/-- A buffer in canonical form holds nothing outside its bounds. -/
theorem cellAt?_eq_none_of_wf {w lo n : Nat} {cells : List (Nat × BitVec w)} (h : cellsWf lo n cells = true) {i : Nat}
    (hi : n ≤ i ∨ i < lo) : cellAt? cells i = none := by
  induction cells generalizing lo with
  | nil => rfl
  | cons c rest ih =>
    obtain ⟨j, v⟩ := c
    rw [cellsWf_cons] at h
    rw [cellAt?_cons, if_neg (by omega), ih h.2.2 (by omega)]

end Sys2Proof.Machine
end

