-- ==== Sys2Proof/Laws/PerInstr.lean ====
section
/-! SUPPORT. Statements about every instruction as syntax, one lemma per constructor. -/

namespace Sys2Proof.Laws.EncodingNamesItsRow

/-- A well-formed instruction's encoding decodes, to an instruction of the same row of spec/opcode_table.json. -/
def Statement (i : Instr) : Prop :=
  i.wellFormed = true → ∃ j, decode (encode i) = .ok j ∧ j.mnemonic = i.mnemonic

theorem getimage (w h ch : Nat) : Statement (.getimage w h ch) := fun _ => ⟨_, rfl, rfl⟩
theorem check : Statement .check := fun _ => ⟨_, rfl, rfl⟩
theorem capture : Statement .capture := fun _ => ⟨_, rfl, rfl⟩
theorem convert : Statement .convert := fun _ => ⟨_, rfl, rfl⟩
theorem resample : Statement .resample := fun _ => ⟨_, rfl, rfl⟩

end Sys2Proof.Laws.EncodingNamesItsRow
end

