-- ==== Sys2Proof/Laws/Runs.lean ====
section
/-! SUPPORT. Runs of several steps: composing them, and the moves that leave a running command as it is. -/

namespace Sys2Proof.Machine

theorem stepsTo_trans {m n : Nat} {a b c : State} (h : stepsTo m a b) (h' : stepsTo n b c) : stepsTo (m + n) a c := by
  induction m generalizing a with
  | zero => cases h; simpa using h'
  | succ m ih =>
    obtain ⟨u, hu, hr⟩ := h
    rw [show m + 1 + n = (m + n) + 1 by omega]
    exact ⟨u, hu, ih hr⟩

/-- A quiet move in a running command is taken, and changes what the host has read and nothing else. -/
theorem step_quiet {s : State} {e : Input} {rest : List Input} (hb : s.phase ≠ .idle) (hi : s.inputs = e :: rest)
    (hq : e.quiet s.cmdMisuseRefused = true) :
    ∃ obs d, step s = .next { s with inputs := rest, observed := obs, draws := d } := by
  rw [step_cons hi]
  cases e with
  | regWrite n v =>
    rcases hostRegOf_cases n with ⟨rfl, _⟩ | ⟨rfl, _⟩ | ⟨hn, _⟩
    · exact ⟨_, _, applyInput_cmdWrite_ignored (s := s.withInputs rest) v hb (by simpa [Input.quiet, hostRegOf] using hq)⟩
    · exact ⟨_, _, rfl⟩
    · simp [Input.quiet, hn] at hq
  | regRead n =>
    rcases hostRegOf_cases n with ⟨rfl, _⟩ | ⟨rfl, _⟩ | ⟨hn, _⟩
    · exact ⟨_, _, applyInput_cmdRead_answered (s := s.withInputs rest) (by simpa [Input.quiet, hostRegOf] using hq)⟩
    · exact ⟨_, _, rfl⟩
    · simp [Input.quiet, hn] at hq
  | outRead i =>
    simp only [Input.quiet, decide_eq_true_eq] at hq
    exact ⟨_, _, readOut_busy (s := s.withInputs rest) hq hb⟩
  | turn => cases hq
  | outWrite i v => cases hq
  | reset => cases hq
  | rawWrite i v => cases hq
  | capDone a => cases hq

/-- A move of the window in which a capture waits: as a quiet one, but that `RAW` may change. -/
theorem step_waits {s : State} {e : Input} {rest : List Input} (hp : s.phase = .capture) (hc : s.capReq = true)
    (hd : s.capDone = none) (hi : s.inputs = e :: rest) (hw : e.waits s.cmdMisuseRefused = true) :
    ∃ obs d r, step s =
      .next { s with inputs := rest, observed := obs, draws := d, mem := { s.mem with raw := r } } := by
  have quiet : e.quiet s.cmdMisuseRefused = true → ∃ obs d r, step s =
      .next { s with inputs := rest, observed := obs, draws := d, mem := { s.mem with raw := r } } := fun hq => by
    obtain ⟨obs, d, h⟩ := step_quiet (by simp [hp]) hi hq
    exact ⟨obs, d, s.mem.raw, h⟩
  cases e with
  | turn =>
    rw [step_cons hi]
    exact ⟨_, _, _, (controllerTurn_capture (s := s.withInputs rest) hp).trans (execCapture_wait hd)⟩
  | rawWrite i v =>
    rw [step_cons hi]
    simp only [Input.waits, decide_eq_true_eq] at hw
    exact ⟨_, _, _, writeRaw_capture (s := s.withInputs rest) hc hw⟩
  | regWrite n v => exact quiet hw
  | regRead n => exact quiet hw
  | outRead i => exact quiet hw
  | outWrite i v => cases hw
  | reset => cases hw
  | capDone a => cases hw

/-- Quiet moves of a running command use up the moves and change what the host has read and nothing else. -/
theorem stepsTo_quiet {q : List Input} {s : State} {rest : List Input} (hb : s.phase ≠ .idle)
    (hi : s.inputs = q ++ rest) (hq : ∀ e ∈ q, e.quiet s.cmdMisuseRefused = true) :
    ∃ obs d, stepsTo q.length s { s with inputs := rest, observed := obs, draws := d } := by
  induction q generalizing s with
  | nil => exact ⟨s.observed, s.draws, by cases s; simp_all [stepsTo]⟩
  | cons e q ih =>
    obtain ⟨obs, d, h⟩ := step_quiet hb hi (hq e List.mem_cons_self)
    obtain ⟨obs', d', h'⟩ := ih (s := { s with inputs := q ++ rest, observed := obs, draws := d }) hb rfl
      fun e he => hq e (List.mem_cons_of_mem _ he)
    exact ⟨obs', d', _, h, h'⟩

/-- The moves of a capture's wait leave the block in CAPTURE: only `RAW` and what the host has read may differ
(42_pipeline.md R94, R96). -/
theorem stepsTo_waits {w : List Input} {s : State} {rest : List Input} (hp : s.phase = .capture) (hc : s.capReq = true)
    (hd : s.capDone = none) (hi : s.inputs = w ++ rest) (hw : ∀ e ∈ w, e.waits s.cmdMisuseRefused = true) :
    ∃ obs d r, stepsTo w.length s
      { s with inputs := rest, observed := obs, draws := d, mem := { s.mem with raw := r } } := by
  induction w generalizing s with
  | nil => exact ⟨s.observed, s.draws, s.mem.raw, by cases s; simp_all [stepsTo]⟩
  | cons e w ih =>
    obtain ⟨obs, d, r, h⟩ := step_waits hp hc hd hi (hw e List.mem_cons_self)
    obtain ⟨obs', d', r', h'⟩ :=
      ih (s := { s with inputs := w ++ rest, observed := obs, draws := d, mem := { s.mem with raw := r } }) hp hc hd rfl
        fun e he => hw e (List.mem_cons_of_mem _ he)
    exact ⟨obs', d', r', _, h, h'⟩

end Sys2Proof.Machine
end

