-- ==== Sys2Proof/Tests/Slice0.lean ====
section
/-! SUPPORT. Tests: ill-formed terms, words written out from the spec's encodings, one-step tests whose expected results
are vectors of 95_test_vectors.md or examples of the rules, and for each obligation with hypotheses a witness that meets
them (`witness_<obligation>…`). -/

open Sys2Proof Sys2Proof.Machine

namespace Sys2Proof.Tests

/-! ### Helpers -/

/-- The state after reset, moved to phase `p` with the next moves `l`. -/
def at_ (p : Phase) (l : List Input) : State :=
  { State.reset with phase := p, capReq := decide (p = .capture), inputs := l }

/-- The same with the supported request latched. -/
def supportedAt (p : Phase) (l : List Input) : State :=
  { at_ p l with cmdW := 32, cmdH := 32, cmdCh := 1 }

/-- The same with `LEGACY_UNCHECKED`. -/
def legacyAt (p : Phase) (l : List Input) : State :=
  { at_ p l with legacyUnchecked := true }

/-- The same with the hardware's answers to a `CMD` write while BUSY and to a `CMD` read. -/
def overrun (s : State) : State := { s with cmdMisuseRefused := false }

/-- The block after a command that ended with CaptureFailure. -/
def failedAt (l : List Input) : State :=
  { at_ .idle l with done := true, code := .captureFailure }

/-- The same with `RAW[0]` = 0, `LUMA[0]` = 7 and `OUT[0]` = 9 written. -/
def markedAt (p : Phase) (l : List Input) : State :=
  { at_ p l with mem := { raw := [(0, 0)], luma := [(0, 7)], out := [(0, 9)] } }

/-- A frame of one colour. -/
def plain (p : Pixel) : Frame := { fill := p, cells := [] }

theorem at_inv (p : Phase) (l : List Input) : (at_ p l).Inv where
  mem_wf := rfl
  capReq_iff := rfl
  done_idle := fun h => nomatch h
  code_ok := fun _ => rfl
  no_answer := rfl
  idle_no_races := fun _ => rfl
  races_lt := fun _ h => nomatch h

theorem supportedAt_inv (p : Phase) (l : List Input) : (supportedAt p l).Inv where
  mem_wf := rfl
  capReq_iff := rfl
  done_idle := fun h => nomatch h
  code_ok := fun _ => rfl
  no_answer := rfl
  idle_no_races := fun _ => rfl
  races_lt := fun _ h => nomatch h

theorem legacyAt_inv (p : Phase) (l : List Input) : (legacyAt p l).Inv where
  mem_wf := rfl
  capReq_iff := rfl
  done_idle := fun h => nomatch h
  code_ok := fun _ => rfl
  no_answer := rfl
  idle_no_races := fun _ => rfl
  races_lt := fun _ h => nomatch h

theorem overrun_inv {s : State} (h : s.Inv) : (overrun s).Inv where
  mem_wf := h.mem_wf
  capReq_iff := h.capReq_iff
  done_idle := h.done_idle
  code_ok := h.code_ok
  no_answer := h.no_answer
  idle_no_races := h.idle_no_races
  races_lt := h.races_lt

theorem failedAt_inv (l : List Input) : (failedAt l).Inv where
  mem_wf := rfl
  capReq_iff := rfl
  done_idle := fun _ => rfl
  code_ok := fun h => nomatch h
  no_answer := rfl
  idle_no_races := fun _ => rfl
  races_lt := fun _ h => nomatch h

theorem markedAt_inv (p : Phase) (l : List Input) : (markedAt p l).Inv where
  mem_wf := rfl
  capReq_iff := rfl
  done_idle := fun h => nomatch h
  code_ok := fun _ => rfl
  no_answer := rfl
  idle_no_races := fun _ => rfl
  races_lt := fun _ h => nomatch h

/-! ### WellFormed refuses (30_encoding.md R57) -/

theorem test_wellFormed_width : (Instr.getimage 4096 32 1).wellFormed = false := by decide
theorem test_wellFormed_height : (Instr.getimage 32 4096 1).wellFormed = false := by decide
theorem test_wellFormed_channels : (Instr.getimage 32 32 256).wellFormed = false := by decide
theorem test_wellFormed_largest : (Instr.getimage 4095 4095 255).wellFormed = true := by decide

/-! ### Words written out from 30_encoding.md R50 (`CH`, `H`, `W`) and R53 -/

theorem test_decode_getimage_supported :
    decode (.cmd 0b00000001000000100000000000100000#32) = .ok (.getimage 32 32 1) := rfl
theorem test_decode_getimage_height_31 :
    decode (.cmd 0b00000001000000011111000000100000#32) = .ok (.getimage 32 31 1) := rfl
theorem test_decode_getimage_positional :
    decode (.cmd 0b00100000000000100000000000000001#32) = .ok (.getimage 1 32 32) := rfl
theorem test_decode_check : decode (.phase 0b001#3) = .ok .check := rfl
theorem test_decode_capture : decode (.phase 0b010#3) = .ok .capture := rfl
theorem test_decode_convert : decode (.phase 0b011#3) = .ok .convert := rfl
theorem test_decode_resample : decode (.phase 0b100#3) = .ok .resample := rfl
theorem test_decode_idle : decode (.phase 0b000#3) = .error .idleSelectsNothing := rfl
theorem test_decode_reserved : decode (.phase 0b110#3) = .error .reservedPhase := rfl
theorem test_table_word_too_wide : decodeTableWord 8 0b1001 = none := rfl
/-- 30_encoding.md R57 and 95_test_vectors.md V-PL-1. -/
theorem test_encode_getimage : encode (.getimage 176 144 1) = .cmd 0x010900B0#32 := by decide
/-- 30_encoding.md R57. -/
theorem test_text : (Instr.getimage 64 32 1).text = "GETIMAGE 64, 32, 1" := by decide

/-! ### The ColorConverter (95_test_vectors.md V-CC-1; S9 for the fields) -/

theorem test_fields_of_pixel : red5 0xABCD#16 = 21 ∧ green6 0xABCD#16 = 30 ∧ blue5 0xABCD#16 = 13 := by decide
theorem test_field_boundary : red5 0x0800#16 = 1 ∧ green6 0x0800#16 = 0 ∧ green6 0x07FF#16 = 63 := by decide
theorem test_channels : channelsOf 0xABCD#16 = { r8 := 172, g8 := 121, b8 := 106 } := by decide
theorem test_acc : accOf 0xABCD#16 = 134539 := by decide
theorem test_luma_arbitrary : lumaOf 0xABCD#16 = 134 := by decide
theorem test_luma_exact_multiple : lumaOf 0x0243#16 = 45 ∧ lumaOf 0x0841#16 = 8 ∧ lumaOf 0xDEFB#16 = 222 := by decide
theorem test_luma_truncates : lumaOf 0x0001#16 = 0 ∧ lumaOf 0xFFDF#16 = 252 ∧ lumaOf 0xFFFE#16 = 253 := by decide

/-! ### The Resampler (95_test_vectors.md V-RS-1) -/

theorem test_source_address :
    srcAddr 3 3 = 2304 ∧ srcAddr 16 16 = 12760 ∧ srcAddr 0 31 = 24464 ∧ srcAddr 31 31 = 24634 := by decide
theorem test_source_address_of_index : srcAddrOf 32 = 704 ∧ srcAddrOf 99 = 2304 ∧ srcAddrOf 1023 = 24634 := by decide

/-! ### One step of each operation -/

/-- 42_pipeline.md R86, V-PL-1: the latches of `CMD <- 0x0101F020`. -/
theorem test_getimage_latches : ∃ t, step (at_ .idle [.cmdWrite 0x0101F020#32]) = .next t ∧
    t.cmdW = 32 ∧ t.cmdH = 31 ∧ t.cmdCh = 1 ∧ t.phase = .check := ⟨_, rfl, by decide, by decide, by decide, rfl⟩

/-- V-PL-5 ("hardware behaviour, which a model refuses instead"): a write of `CMD` during CAPTURE is refused, and with the
hardware's answer it changes no latch. -/
theorem test_getimage_busy :
    step (supportedAt .capture [.cmdWrite 0x01020040#32]) = .refused .commandWhileBusy ∧
    ∃ t, step (overrun (supportedAt .capture [.cmdWrite 0x01020040#32])) = .next t ∧
      t.cmdW = 32 ∧ t.phase = .capture := ⟨rfl, _, rfl, rfl, rfl⟩

/-- V-PL-1, V-PL-2: one wrong field (height 31) is refused, `STATUS` reads 0xA. -/
theorem test_check_refuses : ∃ t, step { supportedAt .check [] with cmdH := 31 } = .next t ∧
    t.statusWord = 0xA#32 ∧ t.capReq = false := ⟨_, rfl, by decide, rfl⟩

/-- 42_pipeline.md R88: the supported request raises `CAP_REQ`; `STATUS` reads 0x1. -/
theorem test_check_passes : ∃ t, step (supportedAt .check []) = .next t ∧
    t.statusWord = 0x1#32 ∧ t.capReq = true := ⟨_, rfl, by decide, rfl⟩

/-- V-PL-2, V-PL-3: a failed capture ends the command, `STATUS` reads 0x6. -/
theorem test_capture_fails :
    ∃ t, step (supportedAt .capture [.capDone { capOk := false, frame := plain 0 }]) = .next t ∧
      t.statusWord = 0x6#32 ∧ t.capReq = false := ⟨_, rfl, by decide, rfl⟩

/-- V-PL-3: a capture without an answer waits. -/
theorem test_capture_waits : step (supportedAt .capture []) = .next (supportedAt .capture []) := rfl

/-- V-CC-4: `RAW[0..3]` = 0x0000, 0xFFFF, 0xF800, 0xABCD gives `LUMA[0..3]` = 0, 255, 76, 134. -/
theorem test_convert : ∃ t, exec .convert { at_ .convert [] with
      mem := { raw := [(0, 0x0000), (1, 0xFFFF), (2, 0xF800), (3, 0xABCD)], luma := [(2, 9)], out := [] } } = .next t ∧
    t.lumaAt 0 = 0 ∧ t.lumaAt 1 = 255 ∧ t.lumaAt 2 = 76 ∧ t.lumaAt 3 = 134 ∧ t.phase = .resample :=
  ⟨_, rfl, (converted_lumaAt (by decide)).trans (by decide), (converted_lumaAt (by decide)).trans (by decide),
    (converted_lumaAt (by decide)).trans (by decide), (converted_lumaAt (by decide)).trans (by decide), rfl⟩

/-- 41_resampler.md R78: `LUMA[2304]` = 200 gives `OUT[99]` = 200; V-PL-2: `STATUS` reads 0x2. -/
theorem test_resample : ∃ t, exec .resample { at_ .resample [] with
      mem := { raw := [], luma := [(2304, 200)], out := [(99, 0xA5)] } } = .next t ∧
    t.outAt 99 = 200 ∧ t.statusWord = 0x2#32 :=
  ⟨_, rfl, (sampled_outAt (by decide)).trans (by decide), by decide⟩

/-- V-PL-2: `STATUS` after reset; 70_reset_and_hazards.md R119: a reset in CAPTURE. -/
theorem test_reset : State.reset.statusWord = 0x0#32 ∧ ∃ t, step (supportedAt .capture [.reset]) = .next t ∧
    t.statusWord = 0x0#32 ∧ t.capReq = false := ⟨by decide, _, rfl, by decide, rfl⟩

/-! ### Witnesses: encoding -/

theorem witness_PhaseValueSelectsTheOperation :
    decode (.phase (at_ .check []).phase.bits) = .ok .check ∧
    decode (.phase (at_ .capture []).phase.bits) = .ok .capture ∧
    decode (.phase (at_ .convert []).phase.bits) = .ok .convert ∧
    decode (.phase (at_ .resample []).phase.bits) = .ok .resample := ⟨rfl, rfl, rfl, rfl⟩

theorem witness_EveryCommandWordIsGetimage :
    0x01020040#32 ≠ 0x01020020#32 ∧ (at_ .idle [.cmdWrite 0x01020040#32, .turn]).phase = .idle ∧
    (at_ .idle [.cmdWrite 0x01020040#32, .turn]).legacyUnchecked = false ∧
    (at_ .idle [.cmdWrite 0x01020040#32, .turn]).inputs = .cmdWrite 0x01020040#32 :: .turn :: [] :=
  ⟨by decide, rfl, rfl, rfl⟩

theorem witness_DecodeOfEncodeIsTheInstruction :
    (Instr.getimage 4095 0 255).wellFormed = true ∧ (Instr.getimage 0 4095 0).wellFormed = true ∧
    Instr.resample.wellFormed = true := by decide

theorem witness_EncodeOfDecodeIsTheWord :
    decode (.cmd 0xFFFFFFFF#32) = .ok (.getimage 4095 4095 255) ∧ decode (.phase 4#3) = .ok .resample := ⟨rfl, rfl⟩

/-- Both clauses at the ends of each field's range. -/
theorem witness_DriverNeverTruncates :
    (0 ≤ (4095 : Int) ∧ (4095 : Int) ≤ 4095 ∧ 0 ≤ (0 : Int) ∧ (0 : Int) ≤ 4095 ∧ 0 ≤ (255 : Int) ∧ (255 : Int) ≤ 255) ∧
    ¬ (0 ≤ (4096 : Int) ∧ (4096 : Int) ≤ 4095 ∧ 0 ≤ (32 : Int) ∧ (32 : Int) ≤ 4095 ∧ 0 ≤ (1 : Int) ∧ (1 : Int) ≤ 255) ∧
    ¬ (0 ≤ (32 : Int) ∧ (32 : Int) ≤ 4095 ∧ 0 ≤ (-1 : Int) ∧ (-1 : Int) ≤ 4095 ∧ 0 ≤ (1 : Int) ∧ (1 : Int) ≤ 255) ∧
    ¬ (0 ≤ (32 : Int) ∧ (32 : Int) ≤ 4095 ∧ 0 ≤ (32 : Int) ∧ (32 : Int) ≤ 4095 ∧ 0 ≤ (256 : Int) ∧ (256 : Int) ≤ 255) ∧
    driverGetImage 4128 32 1 = .answer .unsupportedResolution ∧
    driverGetImage 4095 0 255 = .writeCmd 0xFF000FFF#32 := by decide

theorem witness_UnrepresentableRequestIsRefused :
    (4096 > 4095 ∨ 0 > 4095 ∨ 0 > 255) ∧ (0 > 4095 ∨ 4096 > 4095 ∨ 0 > 255) ∧ (0 > 4095 ∨ 0 > 4095 ∨ 256 > 255) := by
  decide

/-! ### Witnesses: the commands -/

theorem witness_GetimageLatchesTheRequestInIdle :
    4095 ≤ 4095 ∧ 0 ≤ 4095 ∧ 255 ≤ 255 ∧ (at_ .idle []).phase = .idle ∧ (at_ .resample []).phase ≠ .idle := by decide

theorem witness_CommandWriteStepsIntoCheck :
    (at_ .idle [.regWrite 0 0#32]).inputs = .regWrite 0 0#32 :: [] ∧ (at_ .idle [.regWrite 0 0#32]).phase = .idle ∧
    (at_ .check [.regWrite 0 0#32]).inputs = .regWrite 0 0#32 :: [] ∧ (at_ .check [.regWrite 0 0#32]).phase ≠ .idle ∧
    (at_ .check [.regWrite 0 0#32]).cmdMisuseRefused = true ∧
    (overrun (at_ .check [.regWrite 0 0#32])).cmdMisuseRefused = false := by decide

/-- The passing clause and the failing one. -/
theorem witness_CheckComparesTheLatches :
    (supportedAt .check []).legacyUnchecked = false ∧ (supportedAt .check []).cmdW = 32#12 ∧
    (at_ .check []).legacyUnchecked = false ∧ (at_ .check []).cmdW ≠ 32#12 := by decide

theorem witness_CaptureFollowsTheAnswer :
    (at_ .capture []).legacyUnchecked = false ∧ (at_ .capture []).capDone = none ∧
    ((at_ .capture []).presentAnswer ⟨true, plain 3⟩).capDone = some ⟨true, plain 3⟩ ∧
    ((at_ .capture []).presentAnswer ⟨false, plain 3⟩).capDone = some ⟨false, plain 3⟩ := ⟨rfl, rfl, rfl, rfl⟩

theorem witness_ResampleWritesEveryOutput :
    (at_ .resample []).outRaces = [] ∧ (31 < 32 ∧ 31 < 32) ∧ 1024 ≤ 1024 ∧ (at_ .resample []).mem.wf = true :=
  ⟨rfl, by decide, le_refl _, rfl⟩

/-- The three moves, and the clause about what a read foresees: from CAPTURE (with an answer ahead), and the two ways its
command ends. -/
theorem witness_RacedOutAccessesGiveOneOfTwoValues :
    ((at_ .capture [.outRead 1023]).inputs = .outRead 1023 :: [] ∧ (at_ .capture [.outRead 1023]).phase ≠ .idle) ∧
    ((at_ .convert [.outWrite 0 1]).inputs = .outWrite 0 1 :: [] ∧ (at_ .convert [.outWrite 0 1]).phase ≠ .idle) ∧
    1023 < 1024 ∧ 7 ∈ ({ at_ .resample [] with outRaces := [7] } : State).outRaces ∧
    ((at_ .capture [.outRead 0, .capDone ⟨true, plain 0⟩]).Inv ∧
      (at_ .capture [.outRead 0, .capDone ⟨true, plain 0⟩]).phase ≠ .idle ∧
      (at_ .capture [.outRead 0, .capDone ⟨true, plain 0⟩]).inputs.head? ≠ some .reset ∧
      ∃ t, step (at_ .capture [.outRead 0, .capDone ⟨true, plain 0⟩]) = .next t ∧ t.phase ≠ .idle) ∧
    (∃ t, step (at_ .capture [.capDone ⟨false, plain 0⟩]) = .next t ∧ t.phase = .idle) ∧
    (∃ t, step (at_ .resample []) = .next t ∧ t.phase = .idle) :=
  ⟨by decide, by decide, by decide, by decide, ⟨at_inv _ _, by decide, nofun, _, rfl, nofun⟩, ⟨_, rfl, rfl⟩, _, rfl, rfl⟩

/-- 20_memory.md R46: what a read in CAPTURE may see of the command is the luma of the frame it is going to be given, and
nothing where the capture is going to fail or a reset comes first. -/
theorem test_read_foresees_the_command :
    (supportedAt .check [.turn, .outRead 0, .capDone ⟨true, plain 0xF800⟩]).willWrite 0 = some 76 ∧
    (supportedAt .check [.turn, .capDone ⟨false, plain 0xF800⟩]).willWrite 0 = none ∧
    (at_ .capture [.reset, .capDone ⟨true, plain 0xF800⟩]).willWrite 0 = none ∧
    (at_ .capture []).willWrite 0 = none := by decide

/-- 20_memory.md R39: the register numbers. -/
theorem test_register_numbers :
    hostRegOf 0 = some .cmd ∧ hostRegOf 1 = some .status ∧ hostRegOf 2 = none := by decide

theorem witness_WellFormedInstructionsComplete :
    (Instr.getimage 0 4095 255).wellFormed = true ∧ Instr.capture.wellFormed = true := by decide

theorem witness_LegacyUncheckedAlwaysGoesOn :
    (legacyAt .capture []).legacyUnchecked = true ∧ (legacyAt .capture []).capDone = none ∧
    ((legacyAt .capture []).presentAnswer ⟨false, plain 3⟩).capDone = some ⟨false, plain 3⟩ := ⟨rfl, rfl, rfl⟩

/-! ### Witnesses: the datapaths -/

theorem witness_NormalizeScalesTo255 : 30 < 31 ∧ 31 ≤ 31 ∧ 62 < 63 ∧ 63 ≤ 63 := by decide

theorem witness_NormalizeTablesAreTheFormula : 31 < 32 ∧ 63 < 64 := by decide

theorem witness_TruncDropsOnlyTheFraction : (255000 : Acc).toNat ≤ 255000 := by decide

theorem witness_LumaIsMonotone : (red5 0xF7FF#16).toNat ≤ (red5 0xFFFF#16).toNat ∧
    (green6 0xF7FF#16).toNat ≤ (green6 0xFFFF#16).toNat ∧ (blue5 0xF7FF#16).toNat ≤ (blue5 0xFFFF#16).toNat := by
  decide

/-- Two states with the same `RAW` and different `LUMA`. -/
theorem witness_ConvertDependsOnRawAlone :
    (∀ i, i < 25344 → (markedAt .convert []).rawAt i = ((markedAt .convert []).fillLuma fun _ => 0xEE).rawAt i) ∧
    (markedAt .convert []).lumaAt 0 = 7 ∧ ((markedAt .convert []).fillLuma fun _ => 0xEE).lumaAt 0 = 0xEE :=
  ⟨fun _ _ => rfl, rfl, lumaAt_fillLuma _ _ (by decide)⟩

theorem witness_SourceCoordinatesAreTheTables : 31 < 32 := by decide

theorem witness_SourceAddressesAreInRange : 31 < 32 ∧ 0 < 1 ∧ srcCoord 1 1 0 = 0 := by decide

theorem witness_SourceAddressesAreDistinct : 31 < 32 ∧ 0 < 32 ∧ srcAddr 31 0 = srcAddr 31 0 := by decide

/-- 95_test_vectors.md V-RS-2. -/
theorem witness_UniformLumaGivesUniformTensor :
    ((at_ .resample []).fillLuma fun _ => 77).outRaces = [] ∧
    ∀ i, i < 25344 → ((at_ .resample []).fillLuma fun _ => 77).lumaAt i = 77 :=
  ⟨rfl, fun _ hi => lumaAt_fillLuma _ _ hi⟩

/-- 95_test_vectors.md V-RS-4. -/
theorem witness_CheckerboardScales :
    let s := (at_ .resample []).fillLuma fun i => if (i % 176 / 11 + i / 176 / 9) % 2 = 1 then 255 else 0
    s.outRaces = [] ∧ ∀ x y, x < 176 → y < 144 →
      s.lumaAt (y * 176 + x) = if (x / 11 + y / 9) % 2 = 1 then 255 else 0 := by
  refine ⟨rfl, fun x y hx hy => ?_⟩
  rw [lumaAt_fillLuma _ _ (show y * 176 + x < 25344 by omega), show (y * 176 + x) % 176 = x by omega,
    show (y * 176 + x) / 176 = y by omega]

/-- Two states with the same `LUMA` at the sampled elements, different at element 1, which no output samples, and
different in `OUT`. -/
theorem witness_ResampleDependsOnSamplesAlone :
    let s : State := { at_ .resample [] with mem := { raw := [], luma := [(1, 5)], out := [] } }
    let s' : State := { at_ .resample [] with mem := { raw := [], luma := [(1, 6)], out := [(0, 9)] } }
    s.outRaces = [] ∧ s'.outRaces = [] ∧ s.lumaAt 1 ≠ s'.lumaAt 1 ∧
    ∀ x y, x < 32 → y < 32 → s.lumaAt ((y * 144 / 32) * 176 + x * 176 / 32)
      = s'.lumaAt ((y * 144 / 32) * 176 + x * 176 / 32) := by
  refine ⟨rfl, rfl, by decide, fun x y _ _ => ?_⟩
  simp only [State.lumaAt, cellAt?_cons, if_neg (show ¬ 1 = y * 144 / 32 * 176 + x * 176 / 32 by omega)]

/-! ### Witnesses: status, host and FrameSource -/

theorem witness_StatusLayoutAndAccess :
    (at_ .capture [.regRead 1]).inputs = .regRead 1 :: [] ∧
    (at_ .idle [.regWrite 1 1#32]).inputs = .regWrite 1 1#32 :: [] := ⟨rfl, rfl⟩

theorem witness_StatusTakesFiveValues : (at_ .convert []).Inv := at_inv _ _

theorem witness_ReadOfCmdChangesNothing : (at_ .idle [.regRead 0]).inputs = .regRead 0 :: [] ∧
    (at_ .idle [.regRead 0]).cmdMisuseRefused = true ∧
    (overrun (at_ .idle [.regRead 0])).inputs = .regRead 0 :: [] ∧
    (overrun (at_ .idle [.regRead 0])).cmdMisuseRefused = false := ⟨rfl, rfl, rfl, rfl⟩

theorem witness_HostOwnsOutInIdle :
    (at_ .idle [.outRead 1023]).phase = .idle ∧ 1023 < 1024 ∧ (at_ .idle [.outRead 1023]).inputs = .outRead 1023 :: [] ∧
    (at_ .idle [.outWrite 0 7]).phase = .idle ∧ (at_ .idle [.outWrite 0 7]).inputs = .outWrite 0 7 :: [] := by decide

theorem witness_FrameSourceWritesRawOnlyInCapture :
    ((at_ .capture [.rawWrite 25343 1]).inputs = .rawWrite 25343 1 :: [] ∧
      (at_ .capture [.rawWrite 25343 1]).capReq = true ∧ 25343 < 25344) ∧
    (at_ .idle [.rawWrite 0 1]).inputs = .rawWrite 0 1 :: [] ∧ (at_ .idle [.rawWrite 0 1]).capReq = false := by decide

theorem witness_SpuriousAnswerIsIgnored :
    (at_ .convert [.capDone ⟨true, plain 0⟩]).inputs = .capDone ⟨true, plain 0⟩ :: [] ∧
    (at_ .convert [.capDone ⟨true, plain 0⟩]).capReq = false := ⟨rfl, rfl⟩

/-! ### Witnesses: the machine -/

theorem witness_StepRunsTheDecodedInstruction :
    (decode (.phase (at_ .convert []).phase.bits) = .ok .convert ∧ (at_ .convert []).inputs = [] ∧
      (at_ .convert [.turn]).inputs = .turn :: []) ∧
    (decode (.phase (at_ .capture [.capDone ⟨true, plain 0⟩]).phase.bits) = .ok .capture ∧
      (at_ .capture [.capDone ⟨true, plain 0⟩]).inputs = .capDone ⟨true, plain 0⟩ :: [] ∧
      (at_ .capture [.capDone ⟨true, plain 0⟩]).capReq = true) ∧
    (decode (.cmd 0x01020020#32) = .ok (.getimage 32 32 1) ∧
      (at_ .idle [.cmdWrite 0x01020020#32]).inputs = .cmdWrite 0x01020020#32 :: [] ∧
      (at_ .idle [.cmdWrite 0x01020020#32]).phase = .idle ∧
      (at_ .check [.cmdWrite 0x01020020#32]).inputs = .cmdWrite 0x01020020#32 :: [] ∧
      (at_ .check [.cmdWrite 0x01020020#32]).phase ≠ .idle ∧
      (at_ .check [.cmdWrite 0x01020020#32]).cmdMisuseRefused = true) ∧
    (at_ .idle []).phase = .idle ∧ (at_ .idle []).inputs = [] ∧ (at_ .idle [.turn]).inputs = .turn :: [] :=
  ⟨⟨rfl, rfl, rfl⟩, ⟨rfl, rfl, rfl⟩, ⟨rfl, rfl, rfl, rfl, nofun, rfl⟩, rfl, rfl, rfl⟩

theorem witness_FetchedWordRunsNext :
    decodeTableWord 32 0xFFFFFFFF = some (.getimage 4095 4095 255) ∧ decodeTableWord 8 4 = some .resample := ⟨rfl, rfl⟩

theorem witness_EveryStepKeepsTheInvariant :
    (supportedAt .check []).Inv ∧ ∃ t, step (supportedAt .check []) = .next t := ⟨supportedAt_inv _ _, _, rfl⟩

theorem witness_EveryStepKeepsTheMemoryForm :
    (markedAt .idle [.outWrite 3 1]).mem.wf = true ∧ ∃ t, step (markedAt .idle [.outWrite 3 1]) = .next t :=
  ⟨by decide, _, rfl⟩

theorem witness_CanonicalMemoriesAreEqualData :
    let m := ((markedAt .idle []).putOut 1 2).mem
    let m' := (((markedAt .idle []).putOut 1 3).putOut 1 2).mem
    m.wf = true ∧ m'.wf = true ∧ (∀ i, cellAt? m.raw i = cellAt? m'.raw i) ∧
    (∀ i, cellAt? m.luma i = cellAt? m'.luma i) ∧ ∀ j, cellAt? m.out j = cellAt? m'.out j :=
  ⟨by decide, by decide, fun _ => rfl, fun _ => rfl, fun _ => rfl⟩

theorem witness_ResetAbortsTheCommand :
    ((at_ .convert [.reset]).inputs = .reset :: [] ∧ (at_ .convert [.reset]).phase = .convert) ∧
    ((at_ .resample [.reset]).inputs = .reset :: [] ∧ (at_ .resample [.reset]).phase = .resample) ∧
    ((at_ .capture [.reset]).inputs = .reset :: [] ∧ (at_ .capture [.reset]).phase ≠ .resample) ∧
    25343 < 25344 ∧ 1023 < 1024 := by decide

/-- Every edge of the table, and reset. -/
theorem witness_PhaseMovesOnlyAlongTheTable :
    (at_ .idle [.cmdWrite 0#32]).Inv ∧
    (∃ t, step (at_ .idle [.cmdWrite 0#32]) = .next t ∧ t.phase = .check) ∧
    (supportedAt .check []).Inv ∧ (∃ t, step (supportedAt .check []) = .next t ∧ t.phase = .capture) ∧
    (at_ .check []).Inv ∧ (∃ t, step (at_ .check []) = .next t ∧ t.phase = .idle) ∧
    (at_ .capture [.capDone ⟨true, plain 0⟩]).Inv ∧
    (∃ t, step (at_ .capture [.capDone ⟨true, plain 0⟩]) = .next t ∧ t.phase = .convert) ∧
    (at_ .capture [.capDone ⟨false, plain 0⟩]).Inv ∧
    (∃ t, step (at_ .capture [.capDone ⟨false, plain 0⟩]) = .next t ∧ t.phase = .idle) ∧
    (at_ .convert []).Inv ∧ (∃ t, step (at_ .convert []) = .next t ∧ t.phase = .resample) ∧
    (at_ .resample []).Inv ∧ (∃ t, step (at_ .resample []) = .next t ∧ t.phase = .idle) ∧
    (at_ .convert [.reset]).Inv ∧ (∃ t, step (at_ .convert [.reset]) = .next t ∧ t.phase = .idle) :=
  ⟨at_inv _ _, ⟨_, rfl, rfl⟩, supportedAt_inv _ _, ⟨_, rfl, rfl⟩, at_inv _ _, ⟨_, rfl, rfl⟩, at_inv _ _, ⟨_, rfl, rfl⟩,
    at_inv _ _, ⟨_, rfl, rfl⟩, at_inv _ _, ⟨_, rfl, rfl⟩, at_inv _ _, ⟨_, rfl, rfl⟩, at_inv _ _, ⟨_, rfl, rfl⟩⟩

theorem witness_CaptureWaitsForEver :
    let s := overrun (at_ .capture [.cmdWrite 0x01020040#32, .rawWrite 3 1, .turn])
    s.Inv ∧ s.phase = .capture ∧ (∀ e ∈ s.inputs, e.endsCapture = false) ∧ (∃ t, stepsTo 3 s t) ∧
    (at_ .capture []).phase = .capture ∧ (at_ .capture []).capDone = none ∧ (at_ .capture []).inputs = [] :=
  ⟨overrun_inv (at_inv _ _), rfl, by decide, ⟨_, _, rfl, _, rfl, _, rfl, rfl⟩, rfl, rfl, rfl⟩

/-- Both causes; for the clause about the flags also acceptance after a completed command, a reset, and success. -/
theorem witness_OnlyTwoErrorCauses :
    ((at_ .check []).Inv ∧ ∃ t, step (at_ .check []) = .next t ∧ t.code ≠ (at_ .check []).code ∧ t.code ≠ .ok) ∧
    ((at_ .capture [.capDone ⟨false, plain 0⟩]).Inv ∧ ∃ t, step (at_ .capture [.capDone ⟨false, plain 0⟩]) = .next t ∧
      t.code ≠ (at_ .capture [.capDone ⟨false, plain 0⟩]).code ∧ t.code ≠ .ok) ∧
    ((failedAt [.cmdWrite 0#32]).Inv ∧ ∃ t, step (failedAt [.cmdWrite 0#32]) = .next t ∧
      t.done ≠ (failedAt [.cmdWrite 0#32]).done) ∧
    ((failedAt [.reset]).Inv ∧ ∃ t, step (failedAt [.reset]) = .next t ∧ t.code ≠ (failedAt [.reset]).code) ∧
    ((at_ .resample []).Inv ∧ ∃ t, step (at_ .resample []) = .next t ∧ t.done ≠ (at_ .resample []).done) :=
  ⟨⟨at_inv _ _, _, rfl, nofun, nofun⟩, ⟨at_inv _ _, _, rfl, nofun, nofun⟩, ⟨failedAt_inv _, _, rfl, nofun⟩,
    ⟨failedAt_inv _, _, rfl, nofun⟩, at_inv _ _, _, rfl, nofun⟩

/-- Written by the host, and by RESAMPLE (`LUMA[0]` = 7 over `OUT[0]` = 9). -/
theorem witness_OutIsWrittenOnlyByResampleAndHost :
    (∃ t, step (markedAt .idle [.outWrite 0 3]) = .next t ∧ t.outAt 0 ≠ (markedAt .idle [.outWrite 0 3]).outAt 0) ∧
    (∃ t, step (markedAt .resample []) = .next t ∧ t.outAt 0 ≠ (markedAt .resample []).outAt 0) :=
  ⟨⟨_, rfl, by decide⟩, _, controllerTurn_resample rfl, by rw [sampled_outAt (by decide)]; decide⟩

/-- Written by CONVERT (`RAW[0]` = 0 over `LUMA[0]` = 7). -/
theorem witness_LumaIsWrittenOnlyByConvert :
    ∃ t, step (markedAt .convert []) = .next t ∧ t.lumaAt 0 ≠ (markedAt .convert []).lumaAt 0 :=
  ⟨_, controllerTurn_convert rfl, by rw [converted_lumaAt (by decide)]; decide⟩

/-- Written one element at a time, and by an answer. -/
theorem witness_RawIsWrittenOnlyByTheFrameSource :
    ((markedAt .capture [.rawWrite 0 5]).Inv ∧ ∃ t, step (markedAt .capture [.rawWrite 0 5]) = .next t ∧
      t.rawAt 0 ≠ (markedAt .capture [.rawWrite 0 5]).rawAt 0) ∧
    ((markedAt .capture [.capDone ⟨true, plain 5⟩]).Inv ∧
      ∃ t, step (markedAt .capture [.capDone ⟨true, plain 5⟩]) = .next t ∧
        t.rawAt 0 ≠ (markedAt .capture [.capDone ⟨true, plain 5⟩]).rawAt 0) := by
  refine ⟨⟨markedAt_inv _ _, _, rfl, by decide⟩, markedAt_inv _ _, _, rfl, ?_⟩
  rw [enterConvert_rawAt _ (by decide)]
  decide

theorem witness_LatchesAreWrittenOnlyByAcceptance :
    (∃ t, step (at_ .idle [.cmdWrite 0x01020020#32]) = .next t ∧
      t.cmdW ≠ (at_ .idle [.cmdWrite 0x01020020#32]).cmdW) ∧
    (∃ t, step (supportedAt .check [.reset]) = .next t ∧ t.cmdW ≠ (supportedAt .check [.reset]).cmdW) :=
  ⟨⟨_, rfl, by decide⟩, _, rfl, by decide⟩

theorem witness_StagesEndWithoutHelp :
    (at_ .convert []).phase ≠ .idle ∧ (at_ .convert []).phase ≠ .capture ∧ (at_ .convert []).inputs = [] := by decide

theorem witness_ContractKeptNeverStops :
    (at_ .idle [.outWrite 1023 7]).contractKept = true ∧ (at_ .capture [.rawWrite 25343 1]).contractKept = true ∧
    (at_ .capture [.capDone ⟨false, plain 0⟩]).contractKept = true ∧ (at_ .resample []).contractKept = true := by
  decide

/-- Each stop, at the first index that does not exist. -/
theorem witness_StopsComeFromOutsideTheBlock :
    step (at_ .idle [.outRead 1024]) = .fault (.noSuchElement .out 1024) ∧
    step (at_ .idle [.outWrite 1024 0]) = .fault (.noSuchElement .out 1024) ∧
    step (at_ .capture [.rawWrite 25344 0]) = .fault (.noSuchElement .raw 25344) ∧
    step (at_ .idle [.regRead 2]) = .fault (.noSuchRegister 2) ∧
    step (at_ .idle [.regWrite 2 0]) = .fault (.noSuchRegister 2) ∧
    step (at_ .convert [.rawWrite 0 0]) = .refused .frameSourceOutsideCapture ∧
    step (at_ .resample [.regWrite 0 0]) = .refused .commandWhileBusy ∧
    step (at_ .idle [.regRead 0]) = .refused .readOfCmd := ⟨rfl, rfl, rfl, rfl, rfl, rfl, rfl, rfl⟩

/-! ### Witnesses: whole commands -/

/-- Moves of the host while a command runs: a poll of `STATUS`, a raced read. -/
def polls : List Input := [.statusRead, .outRead 1023]

/-- The same with a write of `CMD` that is lost and a read of it. -/
def lost : List Input := [.statusRead, .cmdWrite 0#32, .cmdRead, .outRead 1023]

/-- Moves while a capture waits: turns, polls, a write of `RAW` by the FrameSource. -/
def waiting : List Input := [.turn, .statusRead, .rawWrite 25343 7, .turn]

theorem witness_SupportedCommandDeliversTheTensor :
    let l := commandScript 0x01020020#32 polls waiting { capOk := true, frame := plain 0x8410#16 } polls [] ++ []
    (at_ .idle l).Inv ∧ (at_ .idle l).phase = .idle ∧ (at_ .idle l).legacyUnchecked = false ∧
    (∀ e ∈ polls ++ polls ++ [], e.quiet (at_ .idle l).cmdMisuseRefused = true) ∧
    (∀ e ∈ waiting, e.waits (at_ .idle l).cmdMisuseRefused = true) ∧
    (at_ .idle l).inputs
      = commandScript 0x01020020#32 polls waiting { capOk := true, frame := plain 0x8410#16 } polls [] ++ [] :=
  ⟨at_inv _ _, rfl, rfl, by decide, by decide, rfl⟩

theorem witness_UnsupportedCommandLeavesTheBuffers :
    let s := at_ .idle [.cmdWrite 0x01020040#32, .turn]
    s.phase = .idle ∧ s.capReq = false ∧ s.legacyUnchecked = false ∧ 0x01020040#32 ≠ 0x01020020#32 ∧
    s.inputs = .cmdWrite 0x01020040#32 :: .turn :: [] := ⟨rfl, rfl, rfl, by decide, rfl⟩

theorem witness_FailedCaptureLeavesTheTensor :
    let l := captureScript 0x01020020#32 polls waiting { capOk := false, frame := plain 0 } ++ []
    (at_ .idle l).Inv ∧ (at_ .idle l).phase = .idle ∧ (at_ .idle l).legacyUnchecked = false ∧
    (∀ e ∈ polls, e.quiet (at_ .idle l).cmdMisuseRefused = true) ∧
    (∀ e ∈ waiting, e.waits (at_ .idle l).cmdMisuseRefused = true) ∧
    (at_ .idle l).inputs = captureScript 0x01020020#32 polls waiting { capOk := false, frame := plain 0 } ++ [] :=
  ⟨at_inv _ _, rfl, rfl, by decide, by decide, rfl⟩

/-- One frame given in two ways, from two different states, with different moves in between. -/
theorem witness_EqualFramesGiveEqualTensors :
    let a : CapAnswer := { capOk := true, frame := plain 5 }
    let a' : CapAnswer := { capOk := true, frame := { fill := 5, cells := [(0, 5)] } }
    let s := at_ .idle (commandScript 0x01020020#32 [] [] a [] [] ++ [])
    let s' := overrun (markedAt .idle (commandScript 0x01020020#32 lost waiting a' polls lost ++ []))
    s.Inv ∧ s'.Inv ∧ s.phase = .idle ∧ s'.phase = .idle ∧ s.legacyUnchecked = false ∧ s'.legacyUnchecked = false ∧
    (∀ e ∈ ([] ++ [] ++ [] : List Input), e.quiet s.cmdMisuseRefused = true) ∧
    (∀ e ∈ ([] : List Input), e.waits s.cmdMisuseRefused = true) ∧
    (∀ e ∈ lost ++ polls ++ lost, e.quiet s'.cmdMisuseRefused = true) ∧
    (∀ e ∈ waiting, e.waits s'.cmdMisuseRefused = true) ∧
    (∀ i, i < 25344 → a.frame.at i = a'.frame.at i) ∧
    s.inputs = commandScript 0x01020020#32 [] [] a [] [] ++ [] ∧
    s'.inputs = commandScript 0x01020020#32 lost waiting a' polls lost ++ [] := by
  refine ⟨at_inv _ _, overrun_inv (markedAt_inv _ _), rfl, rfl, rfl, rfl, by decide, nofun, by decide, by decide,
    fun i _ => ?_, rfl, rfl⟩
  cases i <;> rfl

/-- Both clauses. -/
theorem witness_LegacyCommandAlwaysEndsOk :
    let a : CapAnswer := { capOk := false, frame := plain 0 }
    let l := commandScript 0x01020040#32 polls waiting a [] polls ++ []
    ((legacyAt .check []).Inv ∧ (legacyAt .check []).legacyUnchecked = true ∧ (legacyAt .check []).code = .ok ∧
      ∃ t, step (legacyAt .check []) = .next t) ∧
    (legacyAt .idle l).Inv ∧ (legacyAt .idle l).phase = .idle ∧ (legacyAt .idle l).legacyUnchecked = true ∧
    (∀ e ∈ polls ++ [] ++ polls, e.quiet (legacyAt .idle l).cmdMisuseRefused = true) ∧
    (∀ e ∈ waiting, e.waits (legacyAt .idle l).cmdMisuseRefused = true) ∧
    (legacyAt .idle l).inputs = commandScript 0x01020040#32 polls waiting a [] polls ++ [] :=
  ⟨⟨legacyAt_inv _ _, rfl, rfl, _, rfl⟩, legacyAt_inv _ _, rfl, rfl, by decide, by decide, rfl⟩

end Sys2Proof.Tests
end

/-! PROOFS. Family 10_state.md: the register `STATUS` (10_state.md section 4, R18). -/

namespace Sys2Proof.Machine

theorem busy_toNat (s : State) : s.busy.toNat = if s.phase = .idle then 0 else 1 := by
  split
  case isTrue h => rw [not_busy_iff.2 h]; rfl
  case isFalse h => rw [busy_iff.2 h]; rfl

/-- The layout of `STATUS` as one number: `CODE`, `DONE` and `BUSY`, each at its place, and nothing above (R18). -/
theorem statusWord_toNat (s : State) :
    s.statusWord.toNat = s.code.bits.toNat * 4 + s.done.toNat * 2 + s.busy.toNat := by
  have hfields : s.statusWord = ((0#28 ++ s.code.bits).concat s.done).concat s.busy := rfl
  have hcode : (0#28 ++ s.code.bits).toNat = s.code.bits.toNat := by
    simp only [BitVec.toNat_append, BitVec.toNat_ofNat, Nat.zero_mod, Nat.zero_shiftLeft, Nat.zero_or]
  rw [hfields, BitVec.toNat_concat, BitVec.toNat_concat, hcode]
  omega

/-- R18: a host read of `STATUS` hands the word to the host and changes nothing of the block. -/
theorem step_statusRead {s : State} {rest : List Input} (h : s.inputs = .statusRead :: rest) :
    step s = .next ((s.withInputs rest).observe (.status s.statusWord)) :=
  (step_cons h).trans applyInput_statusRead

/-- R18: a host write of `STATUS` is taken and ignored. -/
theorem step_statusWrite {s : State} {v : CmdWord} {rest : List Input} (h : s.inputs = .statusWrite v :: rest) :
    step s = .next (s.withInputs rest) :=
  (step_cons h).trans (applyInput_statusWrite v)

/-- Settles O32: the layout is `statusWord_toNat` with each field's number put in; the accesses are the step rules above. -/
theorem statusLayoutAndAccess : Obligations.StatusLayoutAndAccess := by
  unfold Obligations.StatusLayoutAndAccess
  refine ⟨fun s => ?_, fun s rest h => step_statusRead h, fun s v rest h => step_statusWrite h, by decide⟩
  rw [statusWord_toNat, busy_toNat]
  have hdone : s.done.toNat * 2 = if s.done then 2 else 0 := by cases s.done <;> rfl
  cases s.code <;> simp only [Code.bits, BitVec.toNat_ofNat] <;> omega

end Sys2Proof.Machine

/-! PROOFS. Family 30_encoding.md: the command word (30_encoding.md R50), the driver's mapping (R58) and the selector of
the stage operation (R53). -/

namespace Sys2Proof.Machine

/-! ### The command word -/

/-- R50: the operands of the decoded GETIMAGE are the three bit fields of the word, as numbers. -/
theorem decodeCmd_eq (c : CmdWord) :
    decodeCmd c = .getimage (c.toNat % 4096) (c.toNat / 4096 % 4096) (c.toNat / 16777216) := by
  rw [decodeCmd, cmdFieldW_toNat, cmdFieldH_toNat, cmdFieldCh_toNat]

/-- 42_pipeline.md R86: the host's write of `CMD` in IDLE, as a step. -/
theorem step_cmdWrite_idle {s : State} {c : CmdWord} {rest : List Input} (hp : s.phase = .idle)
    (h : s.inputs = .cmdWrite c :: rest) : step s = .next (acceptCommand c (s.withInputs rest)) :=
  (step_cons h).trans (applyInput_cmdWrite_idle c hp)

/-- 42_pipeline.md R88: the turn that runs CHECK on an unsupported request ends the command, in the normative setting. -/
theorem step_turn_check_refuse {s : State} {rest : List Input} (hp : s.phase = .check)
    (hl : s.legacyUnchecked = false) (hr : s.requestSupported = false) (h : s.inputs = .turn :: rest) :
    step s = .next (complete .unsupportedResolution (s.withInputs rest)) := by
  have hturn : controllerTurn (s.withInputs rest) = execCheck (s.withInputs rest) := controllerTurn_check hp
  have hrefuse : ((s.withInputs rest).legacyUnchecked || (s.withInputs rest).requestSupported) = false :=
    Bool.or_eq_false_iff.2 ⟨hl, hr⟩
  exact (step_cons h).trans (hturn.trans (execCheck_refuse hrefuse))

/-- Settles O2: an unsupported word is accepted by the first step and refused by CHECK in the second. -/
theorem everyCommandWordIsGetimage : Obligations.EveryCommandWordIsGetimage := by
  unfold Obligations.EveryCommandWordIsGetimage
  refine fun c => ⟨congrArg Except.ok (decodeCmd_eq c), fields_eq_supported_iff c, fun hc s rest hp hl hi => ?_⟩
  have haccept : step s = .next (acceptCommand c (s.withInputs (.turn :: rest))) := step_cmdWrite_idle hp hi
  have hunsupported : (acceptCommand c (s.withInputs (.turn :: rest))).requestSupported = false :=
    Bool.eq_false_iff.2 (mt (requestSupported_acceptCommand c _).1 hc)
  have hcheck := step_turn_check_refuse (s := acceptCommand c (s.withInputs (.turn :: rest))) rfl hl hunsupported rfl
  exact ⟨_, ⟨_, haccept, _, hcheck, rfl⟩, rfl, rfl, rfl⟩

/-! ### The driver -/

/-- R58: a negative number is answered by the driver. -/
theorem driverGetImage_of_neg {w h ch : Int} (hneg : w < 0 ∨ h < 0 ∨ ch < 0) :
    driverGetImage w h ch = .answer .unsupportedResolution :=
  if_pos hneg

/-- R58: of the other numbers, those that all fit their fields are packed as they are, and only those. -/
theorem driverGetImage_natCast (w h ch : Nat) :
    driverGetImage w h ch =
      if w ≤ 4095 ∧ h ≤ 4095 ∧ ch ≤ 255 then .writeCmd (packCmd w h ch) else .answer .unsupportedResolution := by
  have hnonneg : ¬ ((w : Int) < 0 ∨ (h : Int) < 0 ∨ (ch : Int) < 0) := by omega
  rw [driverGetImage, if_neg hnonneg]
  by_cases hfit : w ≤ 4095 ∧ h ≤ 4095 ∧ ch ≤ 255
  · simp only [Int.toNat_natCast, requestWord, if_pos hfit]
  · simp only [Int.toNat_natCast, requestWord, if_neg hfit]

/-- Settles O6: a negative number is answered at once; natural numbers are packed or answered as their ranges decide, and
`packCmd_toNat` gives the fields of the packed word. -/
theorem driverNeverTruncates : Obligations.DriverNeverTruncates := by
  unfold Obligations.DriverNeverTruncates
  intro w h ch
  by_cases hneg : w < 0 ∨ h < 0 ∨ ch < 0
  · exact ⟨fun hfit => by omega, fun _ => driverGetImage_of_neg hneg⟩
  · lift w to Nat using by omega
    lift h to Nat using by omega
    lift ch to Nat using by omega
    rw [driverGetImage_natCast]
    refine ⟨fun hfit => ?_, fun hfit => if_neg (by omega)⟩
    obtain ⟨hw, hh, hc⟩ : w ≤ 4095 ∧ h ≤ 4095 ∧ ch ≤ 255 := by omega
    have hpack := packCmd_toNat hw hh hc
    refine ⟨packCmd w h ch, if_pos ⟨hw, hh, hc⟩, ?_, ?_, ?_⟩ <;> omega

/-! ### The selector of the stage operation -/

/-- Bits that decode are executed as the instruction they decode to. -/
theorem runOpWord_of_decode {f : OpWord} {i : Instr} (h : decode f = .ok i) (s : State) : runOpWord f s = exec i s := by
  simp only [runOpWord, h]

/-- Settles O1: the tables are evaluated; the turn runs the word `PHASE` stands for. -/
theorem phaseValueSelectsTheOperation : Obligations.PhaseValueSelectsTheOperation := by
  unfold Obligations.PhaseValueSelectsTheOperation
  refine ⟨rfl, rfl, rfl, rfl, rfl, rfl, rfl, rfl, rfl, rfl, rfl, rfl, rfl, fun s i h => ?_⟩
  exact runOpWord_of_decode h s

end Sys2Proof.Machine

/-! PROOFS. Family 40_colorconverter.md: the fields of a pixel (40_colorconverter.md R62), the channels (R63), the
weighted sum and its truncation (R65, R66), `LUMA_OF` (R68) and the stage operation CONVERT (R69, R71). -/

namespace Sys2Proof.Machine

/-! ### The fields of a pixel -/

/-- A field by mask and shift, as a number: shifting the mask with the pixel leaves a mask of the low `len` bits. -/
theorem mask_shift_toNat (p : Pixel) {mask : Pixel} {lo len : Nat} (hmask : (mask >>> lo).toNat = 2 ^ len - 1) :
    ((p &&& mask) >>> lo).toNat = p.toNat / 2 ^ lo % 2 ^ len := by
  rw [BitVec.ushiftRight_and_distrib, BitVec.toNat_and, hmask, Nat.and_two_pow_sub_one_eq_mod,
    BitVec.toNat_ushiftRight, Nat.shiftRight_eq_div_pow]

/-- Settles O18: field by field both sides are one quotient and remainder of the pixel; those three tile it. -/
theorem extractSplitsThePixel : Obligations.ExtractSplitsThePixel := by
  unfold Obligations.ExtractSplitsThePixel
  intro p
  have hred := mask_shift_toNat p (mask := 0xF800#16) (lo := 11) (len := 5) rfl
  have hgreen := mask_shift_toNat p (mask := 0x07E0#16) (lo := 5) (len := 6) rfl
  have hblue := mask_shift_toNat p (mask := 0x001F#16) (lo := 0) (len := 5) rfl
  rw [BitVec.ushiftRight_zero] at hblue
  rw [red5_toNat, green6_toNat, blue5_toNat, hred, hgreen, hblue]
  omega

/-! ### The channels -/

theorem channelsOf_r8_toNat (p : Pixel) : (channelsOf p).r8.toNat = (red5 p).toNat * 255 / 31 :=
  normalizeTo8_31_toNat (Nat.le_of_lt_succ (red5 p).isLt)

theorem channelsOf_g8_toNat (p : Pixel) : (channelsOf p).g8.toNat = (green6 p).toNat * 255 / 63 :=
  normalizeTo8_63_toNat (Nat.le_of_lt_succ (green6 p).isLt)

theorem channelsOf_b8_toNat (p : Pixel) : (channelsOf p).b8.toNat = (blue5 p).toNat * 255 / 31 :=
  normalizeTo8_31_toNat (Nat.le_of_lt_succ (blue5 p).isLt)

/-- One more in the field is 255 more before the division, which is at least the divisor: the quotient grows. -/
theorem scaled_lt_scaled {v w m : Nat} (hpos : 0 < m) (hm : m ≤ 255) (h : v < w) : v * 255 / m < w * 255 / m :=
  calc v * 255 / m < (v * 255 + m) / m := by rw [Nat.add_div_right _ hpos]; exact Nat.lt_succ_self _
    _ ≤ w * 255 / m := Nat.div_le_div_right (by omega)

/-- Settles O19: the formula is the channels' own; it grows by `scaled_lt_scaled`, and the end points are evaluated. -/
theorem normalizeScalesTo255 : Obligations.NormalizeScalesTo255 := by
  unfold Obligations.NormalizeScalesTo255
  refine ⟨fun p => ⟨channelsOf_r8_toNat p, channelsOf_g8_toNat p, channelsOf_b8_toNat p⟩,
    fun v w hvw hw => ?_, fun v w hvw hw => ?_, rfl, rfl, rfl, rfl⟩
  · rw [normalizeTo8_31_toNat (hvw.le.trans hw), normalizeTo8_31_toNat hw]
    exact scaled_lt_scaled (by decide) (by decide) hvw
  · rw [normalizeTo8_63_toNat (hvw.le.trans hw), normalizeTo8_63_toNat hw]
    exact scaled_lt_scaled (by decide) (by decide) hvw

/-! ### The weighted sum -/

/-- An accumulation whose exact sum fits the 18 bits of `ACC` does not wrap (R65). -/
theorem accumulate_toNat {acc : Acc} {n : Nat} (hacc : acc.toNat = n) {weight : Nat} {channel : Byte}
    (h : n + weight * channel.toNat < 262144) : (accumulate acc weight channel).toNat = n + weight * channel.toNat := by
  rw [accumulate, BitVec.toNat_add, BitVec.toNat_ofNat, hacc, Nat.add_mod_mod]
  exact Nat.mod_eq_of_lt h

/-- The exact sum is at most 1000 times the largest channel, for the weights add up to 1000 (R65). -/
theorem weighted_channels_le (c : Channels) :
    299 * c.r8.toNat + 587 * c.g8.toNat + 114 * c.b8.toNat ≤ 255000 := by
  have hr := c.r8.isLt
  have hg := c.g8.isLt
  have hb := c.b8.isLt
  omega

theorem weightedSum_toNat (c : Channels) :
    (weightedSum c).toNat = 299 * c.r8.toNat + 587 * c.g8.toNat + 114 * c.b8.toNat := by
  have hle := weighted_channels_le c
  have hcleared : (0 : Acc).toNat = 0 := rfl
  have hred := accumulate_toNat hcleared (weight := 299) (channel := c.r8) (by omega)
  have hgreen := accumulate_toNat hred (weight := 587) (channel := c.g8) (by omega)
  have hblue := accumulate_toNat hgreen (weight := 114) (channel := c.b8) (by omega)
  rwa [Nat.zero_add] at hblue

theorem weightedSum_le (c : Channels) : (weightedSum c).toNat ≤ 255000 :=
  (weightedSum_toNat c).trans_le (weighted_channels_le c)

/-- Settles O21: the three accumulations stay below 255000, so none of them wraps. -/
theorem weightedSumIsExact : Obligations.WeightedSumIsExact := by
  unfold Obligations.WeightedSumIsExact
  exact fun c => ⟨weightedSum_toNat c, weightedSum_le c⟩

/-! ### Truncation and `LUMA_OF` -/

/-- A quotient of at most 255000 by 1000 fits the 8 bits of `Y` (R66). -/
theorem truncAcc_toNat {acc : Acc} (h : acc.toNat ≤ 255000) : (truncAcc acc).toNat = acc.toNat / 1000 := by
  rw [truncAcc, BitVec.toNat_ofNat]
  exact Nat.mod_eq_of_lt (show acc.toNat / 1000 < 256 by omega)

/-- Settles O22: a weighted sum is in the range of `truncAcc_toNat`. -/
theorem truncDropsOnlyTheFraction : Obligations.TruncDropsOnlyTheFraction := by
  unfold Obligations.TruncDropsOnlyTheFraction
  exact ⟨fun c => truncAcc_toNat (weightedSum_le c), fun _ h => truncAcc_toNat h⟩

/-- `LUMA_OF` as one formula over the three fields (R68). -/
theorem lumaOf_toNat (p : Pixel) :
    (lumaOf p).toNat = (299 * ((red5 p).toNat * 255 / 31) + 587 * ((green6 p).toNat * 255 / 63)
      + 114 * ((blue5 p).toNat * 255 / 31)) / 1000 := by
  rw [lumaOf, accOf, truncAcc_toNat (weightedSum_le _), weightedSum_toNat, channelsOf_r8_toNat, channelsOf_g8_toNat,
    channelsOf_b8_toNat]

/-- Settles O23: `lumaOf_toNat` with the fields written as slices of the pixel; white and black are evaluated. -/
theorem lumaOfIsTheFormula : Obligations.LumaOfIsTheFormula := by
  unfold Obligations.LumaOfIsTheFormula
  refine ⟨fun p => ?_, rfl, rfl⟩
  rw [lumaOf_toNat, red5_toNat, green6_toNat, blue5_toNat]

/-! ### CONVERT -/

theorem exec_convert (s : State) : exec .convert s = .next s.converted := rfl

/-- Settles O12: the next state is `converted`, whose buffers the lemmas about it give. -/
theorem convertWritesEveryLuma : Obligations.ConvertWritesEveryLuma := by
  unfold Obligations.ConvertWritesEveryLuma
  refine ⟨rfl, fun s => ⟨s.converted, exec_convert s, fun _ hi => ?_, converted_rawAt, converted_outAt, rfl⟩⟩
  exact converted_lumaAt hi

/-- Settles O25: each element of `LUMA` is `LUMA_OF` of the element of `RAW` at its index, and those are equal. -/
theorem convertDependsOnRawAlone : Obligations.ConvertDependsOnRawAlone := by
  unfold Obligations.ConvertDependsOnRawAlone
  refine fun s s' hraw => ⟨s.converted, s'.converted, exec_convert s, exec_convert s', fun i hi => ?_⟩
  rw [converted_lumaAt hi, converted_lumaAt hi, hraw i hi]

end Sys2Proof.Machine

/-! PROOFS. Family 41_resampler.md: the tables of the source coordinates (41_resampler.md R76) and the stage operation
RESAMPLE (R79). -/

namespace Sys2Proof.Machine

/-! ### The tables -/

/-- R76: `LUTX` tabulates `SX`. -/
theorem lutX_eq_srcX : ∀ x, x < 32 → lutX[x]? = some (srcX x) := by decide

/-- R76: `LUTY` tabulates `SY`. -/
theorem lutY_eq_srcY : ∀ y, y < 32 → lutY[y]? = some (srcY y) := by decide

/-! ### RESAMPLE -/

theorem exec_resample (s : State) : exec .resample s = .next (complete .ok s.sampled) := rfl

/-- R79: where the host left `OUT` alone, every element holds the luma at its source address. -/
theorem sampled_outAt_pixel {s : State} (hraces : s.outRaces = []) {x y : Nat} (hx : x < 32) (hy : y < 32) :
    (complete .ok s.sampled).outAt (y * 32 + x) = s.lumaAt (srcY y * 176 + srcX x) := by
  have hindex : y * 32 + x < 1024 := by omega
  have hraced : y * 32 + x ∉ s.outRaces := hraces ▸ List.not_mem_nil
  calc (complete .ok s.sampled).outAt (y * 32 + x)
    _ = s.resampled (y * 32 + x) := sampled_outAt hindex
    _ = s.sampleAt (y * 32 + x) := resampled_of_not_raced hraced
    _ = s.lumaAt (srcY y * 176 + srcX x) := sampleAt_pixel s hx

/-- Canonical buffers list nothing past the end of `OUT`. -/
theorem outAt_of_nOut_le {s : State} (hwf : s.mem.wf = true) {j : Nat} (hj : Config.nOut ≤ j) :
    s.outAt j = Config.outAtStart j := by
  obtain ⟨-, -, hout⟩ := (memory_wf_iff s.mem).1 hwf
  rw [State.outAt, cellAt?_eq_none_of_wf hout (.inl hj), Option.getD_none]

/-- RESAMPLE keeps the canonical form, so nothing past the end of `OUT` is touched. -/
theorem sampled_outAt_beyond {s : State} (hwf : s.mem.wf = true) {j : Nat} (hj : Config.nOut ≤ j) :
    (complete .ok s.sampled).outAt j = s.outAt j := by
  have hwf' : (complete .ok s.sampled).mem.wf = true := fillOut_wf hwf s.resampled
  rw [outAt_of_nOut_le hwf' hj, outAt_of_nOut_le hwf hj]

/-- R79: beside the buffers, `XO`, `YO` and the model's counter, RESAMPLE changes what the end of a command changes. -/
theorem sampled_frame (s : State) :
    { complete .ok s.sampled with mem := s.mem, xo := s.xo, yo := s.yo, draws := s.draws } =
      { s with code := .ok, done := true, phase := .idle, outRaces := [] } := rfl

/-- Settles O13: the elements are `sampled_outAt_pixel` with the tables for the coordinates; the rest is the frame. -/
theorem resampleWritesEveryOutput : Obligations.ResampleWritesEveryOutput := by
  unfold Obligations.ResampleWritesEveryOutput
  refine ⟨rfl, fun s hraces => ⟨complete .ok s.sampled, exec_resample s, fun x y hx hy => ?_,
    fun j hj hwf => sampled_outAt_beyond hwf hj, sampled_rawAt, sampled_lumaAt, ?_⟩⟩
  · exact ⟨srcX x, srcY y, lutX_eq_srcX x hx, lutY_eq_srcY y hy, sampled_outAt_pixel hraces hx hy⟩
  · rw [sampled_frame, ← hraces]

end Sys2Proof.Machine

/-! PROOFS. Family 42_pipeline.md: the wait of CAPTURE (42_pipeline.md R96) and the operations GETIMAGE, CHECK and CAPTURE
(R86, R88, R89). -/

namespace Sys2Proof.Machine

/-! ### The wait of CAPTURE -/

/-- `t` is `s` but for what can change while a capture waits: moves of `s` are used up, buffers are written and reads
observed. Every register is as in `s`. -/
def WaitedFrom (s t : State) : Prop :=
  ∃ moves mem observed races draws, moves <:+ s.inputs ∧
    t = { s with inputs := moves, mem := mem, observed := observed, outRaces := races, draws := draws }

theorem waitedFrom_update (s : State) (mem : Memory) (observed : List Observation) (races : List Nat) (draws : Nat) :
    WaitedFrom s { s with mem := mem, observed := observed, outRaces := races, draws := draws } :=
  ⟨s.inputs, mem, observed, races, draws, List.suffix_rfl, rfl⟩

theorem waitedFrom_refl (s : State) : WaitedFrom s s := waitedFrom_update s s.mem s.observed s.outRaces s.draws

theorem waitedFrom_trans {s u t : State} (hsu : WaitedFrom s u) (hut : WaitedFrom u t) : WaitedFrom s t := by
  obtain ⟨_, _, _, _, _, hu, rfl⟩ := hsu
  obtain ⟨moves, mem, observed, races, draws, ht, rfl⟩ := hut
  exact ⟨moves, mem, observed, races, draws, ht.trans hu, rfl⟩

theorem waitedFrom_withInputs {s : State} {moves : List Input} (h : moves <:+ s.inputs) :
    WaitedFrom s (s.withInputs moves) :=
  ⟨moves, s.mem, s.observed, s.outRaces, s.draws, h, rfl⟩

/-- R89: without an answer the turn of CAPTURE changes nothing. -/
theorem controllerTurn_wait {s : State} (hp : s.phase = .capture) (hd : s.capDone = none) :
    controllerTurn s = .next s :=
  (controllerTurn_capture hp).trans (execCapture_wait hd)

/-- R96: in a capture without an answer, a move that is no answer and no reset leaves every register as it was. -/
theorem applyInput_waitedFrom {s t : State} {e : Input} (hp : s.phase = .capture) (hd : s.capDone = none)
    (he : e.endsCapture = false) (h : applyInput e s = .next t) : WaitedFrom s t := by
  have hbusy : s.phase ≠ .idle := by simp [hp]
  rcases applyInput_cases h with ⟨-, hturn⟩ | ⟨_, -, hidle, -⟩ | ⟨_, -, -, -, rfl⟩ | ⟨-, -, rfl⟩ | ⟨-, rfl⟩ |
    ⟨_, -, rfl⟩ | ⟨_, -, -, hidle, -⟩ | ⟨_, -, -, -, rfl⟩ | ⟨_, _, -, -, hidle, -⟩ | ⟨_, _, -, -, -, rfl⟩ |
    ⟨rfl, -⟩ | ⟨_, _, -, -, -, rfl⟩ | ⟨_, rfl, -, -⟩ | ⟨_, rfl, -, -⟩
  case inl =>
    cases (controllerTurn_wait hp hd).symm.trans hturn
    exact waitedFrom_refl _
  · exact absurd hidle hbusy -- `CMD` written in IDLE
  · exact waitedFrom_refl _ -- `CMD` written while BUSY
  · exact waitedFrom_update _ _ _ _ _ -- `CMD` read
  · exact waitedFrom_update _ _ _ _ _ -- `STATUS` read
  · exact waitedFrom_refl _ -- `STATUS` written
  · exact absurd hidle hbusy -- `OUT` read in IDLE
  · exact waitedFrom_update _ _ _ _ _ -- `OUT` read while BUSY
  · exact absurd hidle hbusy -- `OUT` written in IDLE
  · exact waitedFrom_update _ _ _ _ _ -- `OUT` written while BUSY
  · exact nomatch he -- reset
  · exact waitedFrom_update _ _ _ _ _ -- `RAW` written
  · exact nomatch he -- an answer that is taken
  · exact nomatch he -- an answer that is ignored

theorem step_waitedFrom {s t : State} (hp : s.phase = .capture) (hd : s.capDone = none)
    (he : ∀ e ∈ s.inputs, e.endsCapture = false) (h : step s = .next t) : WaitedFrom s t := by
  rcases step_cases h with ⟨-, hturn⟩ | ⟨e, rest, hi, hmove⟩
  · cases (controllerTurn_wait hp hd).symm.trans hturn
    exact waitedFrom_refl s
  · rw [hi] at he
    have htaken : WaitedFrom s (s.withInputs rest) := waitedFrom_withInputs (hi ▸ List.suffix_cons e rest)
    exact waitedFrom_trans htaken (applyInput_waitedFrom hp hd (he e List.mem_cons_self) hmove)

/-- R96: the wait lasts as long as neither an answer nor a reset comes. -/
theorem stepsTo_waitedFrom {n : Nat} {s t : State} (hp : s.phase = .capture) (hd : s.capDone = none)
    (he : ∀ e ∈ s.inputs, e.endsCapture = false) (h : stepsTo n s t) : WaitedFrom s t := by
  induction n generalizing s with
  | zero => exact h ▸ waitedFrom_refl s
  | succ n ih =>
    obtain ⟨u, hstep, hrun⟩ := h
    have hfirst : WaitedFrom s u := step_waitedFrom hp hd he hstep
    have hrest : WaitedFrom u t := by
      obtain ⟨_, _, _, _, _, hmoves, rfl⟩ := hfirst
      exact ih hp hd (fun e hmem => he e (hmoves.mem hmem)) hrun
    exact waitedFrom_trans hfirst hrest

/-- R96: with no move at all a capture can wait any number of steps, in the same state. -/
theorem stepsTo_wait_self (n : Nat) {s : State} (hp : s.phase = .capture) (hd : s.capDone = none)
    (hi : s.inputs = []) : stepsTo n s s := by
  induction n with
  | zero => rfl
  | succ n ih => exact ⟨s, (step_nil hi).trans (controllerTurn_wait hp hd), ih⟩

/-- In a running command `STATUS` reads 1: only `BUSY` is set (10_state.md R18, R29). -/
theorem statusWord_of_busy {s : State} (hinv : s.Inv) (hbusy : s.phase ≠ .idle) : s.statusWord = 1#32 := by
  have hdone : s.done = false := Bool.eq_false_iff.2 (mt hinv.done_idle hbusy)
  rw [statusWord_of rfl hdone (hinv.code_ok hdone)]
  cases hp : s.phase with
  | idle => exact absurd hp hbusy
  | check | capture | convert | resample => rfl

/-- Settles O47: a run without an answer or a reset keeps every register, by induction over its steps; the invariant
gives the value of `CAP_REQ` and of `STATUS` at its start. -/
theorem captureWaitsForEver : Obligations.CaptureWaitsForEver := by
  unfold Obligations.CaptureWaitsForEver
  refine ⟨fun n s t hinv hp he hrun => ?_, fun n s hp hd hi => stepsTo_wait_self n hp hd hi⟩
  have hreq : s.capReq = true := by rw [hinv.capReq_iff, hp]; rfl
  have hstatus : s.statusWord = 1#32 := statusWord_of_busy hinv (by simp [hp])
  obtain ⟨_, _, _, _, _, -, rfl⟩ := stepsTo_waitedFrom hp hinv.no_answer he hrun
  exact ⟨hp, hreq, hstatus, rfl, rfl, rfl⟩

/-! ### GETIMAGE -/

theorem exec_getimage (w h ch : Nat) (s : State) : exec (.getimage w h ch) s = execGetimage w h ch s := rfl

theorem wellFormed_getimage {w h ch : Nat} (hw : w ≤ 4095) (hh : h ≤ 4095) (hc : ch ≤ 255) :
    (Instr.getimage w h ch).wellFormed = true := by
  simp [Instr.wellFormed, hw, hh, hc]

section PackedFields

variable {w h ch : Nat} (hw : w ≤ 4095) (hh : h ≤ 4095) (hc : ch ≤ 255)
include hw hh hc

theorem cmdFieldW_packCmd : cmdFieldW (packCmd w h ch) = BitVec.ofNat 12 w := by
  apply BitVec.eq_of_toNat_eq
  rw [cmdFieldW_toNat, packCmd_toNat hw hh hc, BitVec.toNat_ofNat]
  omega

theorem cmdFieldH_packCmd : cmdFieldH (packCmd w h ch) = BitVec.ofNat 12 h := by
  apply BitVec.eq_of_toNat_eq
  rw [cmdFieldH_toNat, packCmd_toNat hw hh hc, BitVec.toNat_ofNat]
  omega

theorem cmdFieldCh_packCmd : cmdFieldCh (packCmd w h ch) = BitVec.ofNat 8 ch := by
  apply BitVec.eq_of_toNat_eq
  rw [cmdFieldCh_toNat, packCmd_toNat hw hh hc, BitVec.toNat_ofNat]
  omega

end PackedFields

/-- Settles O8: in IDLE the packed word is accepted, and its three fields are the operands; a busy block ignores it. -/
theorem getimageLatchesTheRequestInIdle : Obligations.GetimageLatchesTheRequestInIdle := by
  unfold Obligations.GetimageLatchesTheRequestInIdle
  intro s w h ch hw hh hc
  have hwf := wellFormed_getimage hw hh hc
  refine ⟨fun hidle => ?_, fun hbusy => execGetimage_busy hwf hbusy⟩
  rw [exec_getimage, execGetimage_idle hwf hidle, acceptCommand, cmdFieldW_packCmd hw hh hc, cmdFieldH_packCmd hw hh hc,
    cmdFieldCh_packCmd hw hh hc]

/-! ### CHECK -/

theorem exec_check (s : State) : exec .check s = execCheck s := rfl

/-- Settles O10: in the normative setting CHECK passes exactly on the latches `requestSupported_iff` names. -/
theorem checkComparesTheLatches : Obligations.CheckComparesTheLatches := by
  unfold Obligations.CheckComparesTheLatches
  refine ⟨rfl, fun s hlegacy => ?_⟩
  rw [exec_check]
  split
  case isTrue hlatches => exact execCheck_pass (by simp [(requestSupported_iff s).2 hlatches])
  case isFalse hlatches =>
    have hunsupported : s.requestSupported = false := Bool.eq_false_iff.2 (mt (requestSupported_iff s).1 hlatches)
    exact execCheck_refuse (Bool.or_eq_false_iff.2 ⟨hlegacy, hunsupported⟩)

/-! ### CAPTURE -/

theorem exec_capture (s : State) : exec .capture s = execCapture s := rfl

/-- R87: once a capture is answered `RAW` holds what the answer says, also where the command ends there. -/
theorem endCapture_rawAt (a : CapAnswer) (s : State) {i : Nat} (hi : i < Config.nPix) :
    (endCapture a s).rawAt i = a.frame.at i :=
  rawAt_fillRaw s a.frame.at hi

/-- Settles O11: CAPTURE by its three cases; an answer fills `RAW` and no other buffer. -/
theorem captureFollowsTheAnswer : Obligations.CaptureFollowsTheAnswer := by
  unfold Obligations.CaptureFollowsTheAnswer
  refine ⟨rfl, fun s hlegacy => ⟨fun hd => execCapture_wait hd, fun a hd hok => ?_, fun a hd hfail => ?_⟩⟩
  · have hnext : exec .capture s = .next (enterConvert a s) := execCapture_ok hd (by simp [hok])
    exact ⟨_, hnext, rfl, fun _ hi => enterConvert_rawAt a hi, fun _ => rfl, fun _ => rfl⟩
  · have hnext : exec .capture s = .next (complete .captureFailure (endCapture a s)) :=
      execCapture_fail hd (Bool.or_eq_false_iff.2 ⟨hlegacy, hfail⟩)
    exact ⟨_, hnext, rfl, fun _ hi => endCapture_rawAt a s hi, fun _ => rfl, fun _ => rfl⟩

end Sys2Proof.Machine

/-! PROOFS. Family 60_exceptions.md: the two error causes (60_exceptions.md R102) and who changes `DONE` and `CODE`. -/

namespace Sys2Proof.Machine

/-- What a step does to `DONE` and `CODE`: it keeps both, or it is one of the five that write them, an acceptance
(42_pipeline.md R86), a reset (70_reset_and_hazards.md R117) or one of the three ends of a command (60_exceptions.md R101,
R102). `rest` stands for the moves left after the step. -/
inductive FlagEffect (s : State) : State → Prop
  | kept {t : State} (hdone : t.done = s.done) (hcode : t.code = s.code) : FlagEffect s t
  | accepted (c : CmdWord) (rest : List Input) (hp : s.phase = .idle) (hi : s.inputs = .cmdWrite c :: rest) :
      FlagEffect s (acceptCommand c (s.withInputs rest))
  | aborted (rest : List Input) (hi : s.inputs = .reset :: rest) : FlagEffect s (s.withInputs rest).afterReset
  | requestRefused (rest : List Input) (hp : s.phase = .check) (hr : s.requestSupported = false) :
      FlagEffect s (complete .unsupportedResolution (s.withInputs rest))
  | captureFailed (f : Frame) (rest : List Input) (hp : s.phase = .capture)
      (hi : s.inputs = .capDone { capOk := false, frame := f } :: rest) :
      FlagEffect s (complete .captureFailure
        (endCapture { capOk := false, frame := f } ((s.withInputs rest).presentAnswer { capOk := false, frame := f })))
  | delivered (rest : List Input) (hp : s.phase = .resample) :
      FlagEffect s (complete .ok (s.withInputs rest).sampled)

/-- Without an answer the controller's turn writes the flags only where CHECK refuses or RESAMPLE ends. -/
theorem controllerTurn_flagEffect {s t : State} (rest : List Input) (hd : s.capDone = none)
    (h : controllerTurn (s.withInputs rest) = .next t) : FlagEffect s t := by
  obtain ⟨u, hu, hcases⟩ := controllerTurn_cases (s.withInputs rest)
  cases hu.symm.trans h
  rcases hcases with ⟨-, rfl⟩ | ⟨-, -, rfl⟩ | ⟨hp, hr, rfl⟩ | ⟨-, -, rfl⟩ | ⟨-, _, ha, -⟩ | ⟨-, _, ha, -⟩ | ⟨-, rfl⟩ |
    ⟨hp, rfl⟩
  · exact .kept rfl rfl -- IDLE
  · exact .kept rfl rfl -- CHECK goes on
  · exact .requestRefused rest hp (Bool.or_eq_false_iff.1 hr).2
  · exact .kept rfl rfl -- CAPTURE waits
  · exact nomatch hd.symm.trans ha
  · exact nomatch hd.symm.trans ha
  · exact .kept rfl rfl -- CONVERT
  · exact .delivered rest hp

/-- An answer that is taken writes the flags only where it says that the capture failed. -/
theorem answer_flagEffect {s t : State} {a : CapAnswer} {rest : List Input} (hp : s.phase = .capture)
    (hi : s.inputs = .capDone a :: rest)
    (h : controllerTurn ((s.withInputs rest).presentAnswer a) = .next t) : FlagEffect s t := by
  have hturn : execCapture ((s.withInputs rest).presentAnswer a) = .next t :=
    (controllerTurn_capture (s := (s.withInputs rest).presentAnswer a) hp).symm.trans h
  have hanswer : ((s.withInputs rest).presentAnswer a).capDone = some a := rfl
  cases hok : s.legacyUnchecked || a.capOk with
  | true =>
    cases (execCapture_ok hanswer hok).symm.trans hturn
    exact .kept rfl rfl
  | false =>
    cases (execCapture_fail hanswer hok).symm.trans hturn
    obtain ⟨capOk, f⟩ := a
    obtain ⟨-, rfl⟩ : _ ∧ capOk = false := Bool.or_eq_false_iff.1 hok
    exact .captureFailed f rest hp hi

/-- Every step from a state that meets the invariant has one of the effects above; an answer is taken only in CAPTURE. -/
theorem step_flagEffect {s t : State} (hinv : s.Inv) (h : step s = .next t) : FlagEffect s t := by
  rcases step_cases h with ⟨-, hturn⟩ | ⟨e, rest, hi, hmove⟩
  · exact controllerTurn_flagEffect s.inputs hinv.no_answer hturn
  rcases applyInput_cases hmove with ⟨-, hturn⟩ | ⟨c, rfl, hp, rfl⟩ | ⟨_, -, -, -, rfl⟩ | ⟨-, -, rfl⟩ | ⟨-, rfl⟩ |
    ⟨_, -, rfl⟩ | ⟨_, -, -, -, rfl⟩ | ⟨_, -, -, -, rfl⟩ | ⟨_, _, -, -, -, rfl⟩ | ⟨_, _, -, -, -, rfl⟩ |
    ⟨rfl, rfl⟩ | ⟨_, _, -, -, -, rfl⟩ | ⟨a, rfl, hreq, hturn⟩ | ⟨_, -, -, rfl⟩
  · exact controllerTurn_flagEffect rest hinv.no_answer hturn
  · exact .accepted c rest hp hi
  · exact .kept rfl rfl -- `CMD` written while BUSY
  · exact .kept rfl rfl -- `CMD` read
  · exact .kept rfl rfl -- `STATUS` read
  · exact .kept rfl rfl -- `STATUS` written
  · exact .kept rfl rfl -- `OUT` read in IDLE
  · exact .kept rfl rfl -- `OUT` read while BUSY
  · exact .kept rfl rfl -- `OUT` written in IDLE
  · exact .kept rfl rfl -- `OUT` written while BUSY
  · exact .aborted rest hi
  · exact .kept rfl rfl -- `RAW` written
  · have hp : s.phase = .capture := of_decide_eq_true (hinv.capReq_iff.symm.trans hreq)
    exact answer_flagEffect hp hi hturn
  · exact .kept rfl rfl -- an answer that is ignored

/-- Settles O48: each effect on the flags is read off; only the two failing ends write an error. -/
theorem onlyTwoErrorCauses : Obligations.OnlyTwoErrorCauses := by
  unfold Obligations.OnlyTwoErrorCauses
  refine ⟨rfl, rfl, fun s t hinv h hcode herr => ?_, fun s t hinv h hchange => ?_⟩
  · cases step_flagEffect hinv h with
    | kept _ hsame => exact absurd hsame hcode
    | accepted | aborted | delivered => exact absurd rfl herr
    | requestRefused rest hp hr =>
      have hlatches : ¬ (s.cmdW = 32#12 ∧ s.cmdH = 32#12 ∧ s.cmdCh = 1#8) :=
        mt (requestSupported_iff s).2 (Bool.eq_false_iff.1 hr)
      exact ⟨rfl, rfl, fun _ => rfl, fun _ => rfl, .inl ⟨hp, rfl, fun _ => rfl, hlatches⟩⟩
    | captureFailed f rest hp hi =>
      exact ⟨rfl, rfl, fun _ => rfl, fun _ => rfl, .inr ⟨hp, rfl, f, hi ▸ rfl⟩⟩
  · cases step_flagEffect hinv h with
    | kept hdone hcode => exact (hchange.elim (· hdone) (· hcode)).elim
    | accepted c rest hp hi => exact .inl ⟨rfl, rfl, .inl ⟨hp, rfl, c, hi ▸ rfl⟩⟩
    | aborted rest hi => exact .inl ⟨rfl, rfl, .inr (hi ▸ rfl)⟩
    | requestRefused rest hp => exact .inr ⟨rfl, rfl, .inl ⟨hp, rfl⟩⟩
    | captureFailed f rest hp => exact .inr ⟨rfl, rfl, .inr (.inl ⟨hp, rfl⟩)⟩
    | delivered rest hp => exact .inr ⟨rfl, rfl, .inr (.inr ⟨hp, rfl⟩)⟩

end Sys2Proof.Machine

/-! PROOFS. Family 70_reset_and_hazards.md: the reset input (70_reset_and_hazards.md R117, R119). -/

namespace Sys2Proof.Machine

/-- 42_pipeline.md R94: the reset input is taken in every phase. -/
theorem step_reset {s : State} {rest : List Input} (h : s.inputs = .reset :: rest) :
    step s = .next (s.withInputs rest).afterReset :=
  step_cons h

/-- R117: `STATUS` reads as in `State.reset`: no bit is set. -/
theorem afterReset_statusWord (s : State) : s.afterReset.statusWord = 0#32 := by
  have hfields : s.afterReset.statusWord = State.reset.statusWord := rfl
  rw [hfields]
  decide

/-- R119: a reset that hits CONVERT leaves each element of `LUMA` converted or old, by one free choice per element. -/
theorem afterReset_lumaAt_of_convert {s : State} {i : Nat} (hp : s.phase = .convert) (hi : i < Config.nPix) :
    s.afterReset.lumaAt i = if Config.raceChoice s.draws i then lumaOf (s.rawAt i) else s.lumaAt i := by
  simp only [State.lumaAt, afterReset_mem, memAfterReset, if_pos hp, cellAt?_fillCells, if_pos hi, Option.getD_some]

/-- R119: a reset that hits RESAMPLE leaves each element of `OUT` sampled or old, by one free choice per element. -/
theorem afterReset_outAt_of_resample {s : State} {j : Nat} (hp : s.phase = .resample) (hj : j < Config.nOut) :
    s.afterReset.outAt j = if Config.raceChoice s.draws j then s.sampleAt j else s.outAt j := by
  simp only [State.outAt, afterReset_mem, memAfterReset, if_pos hp, cellAt?_fillCells, if_pos hj, Option.getD_some]

/-- 10_state.md R28: a reset in any phase but RESAMPLE does not touch `OUT`. -/
theorem afterReset_outAt_of_ne_resample {s : State} (hp : s.phase ≠ .resample) (j : Nat) :
    s.afterReset.outAt j = s.outAt j :=
  outAt_congr (if_neg hp) j

/-- Settles O45: the registers are those of `State.reset`; for a buffer the reset interrupts, each element's free choice
decides between the two values R119 allows. -/
theorem resetAbortsTheCommand : Obligations.ResetAbortsTheCommand := by
  unfold Obligations.ResetAbortsTheCommand
  intro s rest h
  refine ⟨_, step_reset h, rfl, rfl, rfl, rfl, afterReset_statusWord _, fun hp i hi => ?_, fun hp j hj => ?_,
    fun hp j => ?_⟩
  · have hluma := afterReset_lumaAt_of_convert (s := s.withInputs rest) hp hi
    exact (ite_eq_or_eq _ _ _).symm.imp hluma.trans hluma.trans
  · have hout := afterReset_outAt_of_resample (s := s.withInputs rest) hp hj
    exact (ite_eq_or_eq _ _ _).symm.imp hout.trans hout.trans
  · exact afterReset_outAt_of_ne_resample (s := s.withInputs rest) hp j

end Sys2Proof.Machine

/-! PROOFS. What one step can do, said once: the effects of the controller's turn and of the step, from any state. The
statements about every step below are case splits over these. -/

namespace Sys2Proof.Machine

/-! ### The controller's turn -/

/-- What a turn of the controller does, one case per phase and branch (42_pipeline.md R88 to R91, R94, R96). -/
inductive TurnEffect (s : State) : State → Prop
  | rested (hp : s.phase = .idle) : TurnEffect s s
  | requested (hp : s.phase = .check) (hpass : (s.legacyUnchecked || s.requestSupported) = true) :
      TurnEffect s (requestCapture s)
  | requestRefused (hp : s.phase = .check) (hrefuse : (s.legacyUnchecked || s.requestSupported) = false) :
      TurnEffect s (complete .unsupportedResolution s)
  | waited (hp : s.phase = .capture) (hd : s.capDone = none) : TurnEffect s s
  | captured (a : CapAnswer) (hp : s.phase = .capture) (hd : s.capDone = some a)
      (hok : (s.legacyUnchecked || a.capOk) = true) : TurnEffect s (enterConvert a s)
  | captureFailed (a : CapAnswer) (hp : s.phase = .capture) (hd : s.capDone = some a)
      (hfail : (s.legacyUnchecked || a.capOk) = false) : TurnEffect s (complete .captureFailure (endCapture a s))
  | converted (hp : s.phase = .convert) : TurnEffect s s.converted
  | delivered (hp : s.phase = .resample) : TurnEffect s (complete .ok s.sampled)

theorem controllerTurn_effect {s t : State} (h : controllerTurn s = .next t) : TurnEffect s t := by
  obtain ⟨u, hu, hcases⟩ := controllerTurn_cases s
  cases hu.symm.trans h
  rcases hcases with ⟨hp, rfl⟩ | ⟨hp, hpass, rfl⟩ | ⟨hp, hrefuse, rfl⟩ | ⟨hp, hd, rfl⟩ | ⟨hp, a, hd, hok, rfl⟩ |
    ⟨hp, a, hd, hfail, rfl⟩ | ⟨hp, rfl⟩ | ⟨hp, rfl⟩
  · exact .rested hp
  · exact .requested hp hpass
  · exact .requestRefused hp hrefuse
  · exact .waited hp hd
  · exact .captured a hp hd hok
  · exact .captureFailed a hp hd hfail
  · exact .converted hp
  · exact .delivered hp

/-- The controller's turn always answers a next state. -/
theorem controllerTurn_next (s : State) : ∃ t, controllerTurn s = .next t :=
  (controllerTurn_cases s).imp fun _ h => h.1

/-! ### The step -/

/-- Moves that are neither a turn nor a reset, nor an answer that is taken: the controller does nothing on them. -/
def Input.passesBy (capReq : Bool) : Input → Bool
  | .turn => false
  | .reset => false
  | .capDone _ => !capReq
  | .regWrite _ _ => true
  | .regRead _ => true
  | .outRead _ => true
  | .outWrite _ _ => true
  | .rawWrite _ _ => true

/-- What a step does: a move that leaves the block as it is and at most tells the host something, a move that writes, a
reset, or the controller's turn, which an answer brings about where one is asked for. -/
inductive StepEffect (s : State) : State → Prop
  | passed (e : Input) (rest : List Input) (observed : List Observation) (draws : Nat) (hi : s.inputs = e :: rest)
      (he : e.passesBy s.capReq = true) :
      StepEffect s { s with inputs := rest, observed := observed, draws := draws }
  | accepted (c : CmdWord) (rest : List Input) (hi : s.inputs = .cmdWrite c :: rest) (hp : s.phase = .idle) :
      StepEffect s (acceptCommand c (s.withInputs rest))
  | outWritten (i : Nat) (v : Byte) (rest : List Input) (hi : s.inputs = .outWrite i v :: rest) (hlt : i < Config.nOut)
      (hp : s.phase = .idle) : StepEffect s ((s.withInputs rest).putOut i v)
  | outRaced (i : Nat) (v : Byte) (rest : List Input) (hi : s.inputs = .outWrite i v :: rest) (hlt : i < Config.nOut)
      (hp : s.phase ≠ .idle) : StepEffect s ((s.withInputs rest).putOutRaced i v)
  | rawWritten (i : Nat) (v : Pixel) (rest : List Input) (hi : s.inputs = .rawWrite i v :: rest) (hlt : i < Config.nPix)
      (hreq : s.capReq = true) : StepEffect s ((s.withInputs rest).putRaw i v)
  | aborted (rest : List Input) (hi : s.inputs = .reset :: rest) : StepEffect s (s.withInputs rest).afterReset
  | turned (rest : List Input) (hi : s.inputs = .turn :: rest ∨ (s.inputs = [] ∧ rest = [])) {t : State}
      (h : TurnEffect (s.withInputs rest) t) : StepEffect s t
  | answered (a : CapAnswer) (rest : List Input) (hi : s.inputs = .capDone a :: rest) (hreq : s.capReq = true)
      {t : State} (h : TurnEffect ((s.withInputs rest).presentAnswer a) t) : StepEffect s t

theorem withInputs_self {s : State} {moves : List Input} (h : s.inputs = moves) : s.withInputs moves = s := by
  subst h; rfl

theorem step_effect {s t : State} (h : step s = .next t) : StepEffect s t := by
  rcases step_cases h with ⟨hi, hturn⟩ | ⟨e, rest, hi, hmove⟩
  · rw [← withInputs_self hi] at hturn
    exact .turned [] (.inr ⟨hi, rfl⟩) (controllerTurn_effect hturn)
  rcases applyInput_cases hmove with ⟨rfl, hturn⟩ | ⟨c, rfl, hp, rfl⟩ | ⟨_, rfl, -, -, rfl⟩ | ⟨rfl, -, rfl⟩ |
    ⟨rfl, rfl⟩ | ⟨_, rfl, rfl⟩ | ⟨_, rfl, -, -, rfl⟩ | ⟨_, rfl, -, -, rfl⟩ | ⟨i, v, rfl, hlt, hp, rfl⟩ |
    ⟨i, v, rfl, hlt, hp, rfl⟩ | ⟨rfl, rfl⟩ | ⟨i, v, rfl, hlt, hreq, rfl⟩ | ⟨a, rfl, hreq, hturn⟩ | ⟨a, rfl, hreq, rfl⟩
  · exact .turned rest (.inl hi) (controllerTurn_effect hturn)
  · exact .accepted c rest hi hp
  · exact .passed _ rest s.observed s.draws hi rfl -- `CMD` written while BUSY
  · exact .passed _ rest _ _ hi rfl -- `CMD` read
  · exact .passed _ rest _ s.draws hi rfl -- `STATUS` read
  · exact .passed _ rest s.observed s.draws hi rfl -- `STATUS` written
  · exact .passed _ rest _ s.draws hi rfl -- `OUT` read in IDLE
  · exact .passed _ rest _ _ hi rfl -- `OUT` read while BUSY
  · exact .outWritten i v rest hi hlt hp
  · exact .outRaced i v rest hi hlt hp
  · exact .aborted rest hi
  · exact .rawWritten i v rest hi hlt hreq
  · exact .answered a rest hi hreq (controllerTurn_effect hturn)
  · exact .passed _ rest s.observed s.draws hi (by rw [show s.capReq = false from hreq]; rfl) -- an ignored answer

/-- Under the invariant an answer is asked for in CAPTURE and nowhere else (10_state.md R29 e). -/
theorem phase_of_capReq {s : State} (hinv : s.Inv) (hreq : s.capReq = true) : s.phase = .capture :=
  of_decide_eq_true (hinv.capReq_iff.symm.trans hreq)

end Sys2Proof.Machine

/-! PROOFS. What every step keeps: the canonical form of the buffers and the invariant (10_state.md section 9,
20_memory.md section 1). -/

namespace Sys2Proof.Machine

/-! ### The canonical form -/

theorem turnEffect_mem_wf {s t : State} (hwf : s.mem.wf = true) (h : TurnEffect s t) : t.mem.wf = true := by
  cases h with
  | rested | requested | requestRefused | waited => exact hwf
  | captured a | captureFailed a => exact fillRaw_wf hwf a.frame.at
  | converted => exact fillLuma_wf hwf _
  | delivered => exact fillOut_wf hwf s.resampled

/-- Settles O43: each effect writes whole buffers or elements inside them. -/
theorem everyStepKeepsTheMemoryForm : Obligations.EveryStepKeepsTheMemoryForm := by
  unfold Obligations.EveryStepKeepsTheMemoryForm
  intro s t hwf h
  cases step_effect h with
  | passed | accepted => exact hwf
  | outWritten i v rest _ hlt | outRaced i v rest _ hlt => exact putOut_wf (s := s.withInputs rest) hwf hlt v
  | rawWritten i v rest _ hlt => exact putRaw_wf (s := s.withInputs rest) hwf hlt v
  | aborted rest => exact memAfterReset_wf (s := s.withInputs rest) hwf
  | turned rest _ hturn => exact turnEffect_mem_wf (s := s.withInputs rest) hwf hturn
  | answered a rest _ _ hturn => exact turnEffect_mem_wf (s := (s.withInputs rest).presentAnswer a) hwf hturn

/-- The first index a buffer in canonical form lists is the least at which it holds anything. -/
theorem head_le_of_cellAt? {w lo n i j : Nat} {v u : BitVec w} {rest : List (Nat × BitVec w)}
    (hwf : cellsWf lo n ((j, v) :: rest) = true) (h : cellAt? ((j, v) :: rest) i = some u) : j ≤ i := by
  by_contra hlt
  have hwfj : cellsWf j n ((j, v) :: rest) = true :=
    (cellsWf_cons ..).2 ⟨le_refl j, ((cellsWf_cons ..).1 hwf).2⟩
  exact nomatch (cellAt?_eq_none_of_wf hwfj (.inr (by omega))).symm.trans h

@[simp] theorem cellAt?_cons_self {w : Nat} (j : Nat) (v : BitVec w) (rest : List (Nat × BitVec w)) :
    cellAt? ((j, v) :: rest) j = some v := if_pos rfl

/-- A buffer in canonical form is settled by what it holds: head by head the least index is the same, and so is its
element. -/
theorem cells_ext {w lo n : Nat} {cells cells' : List (Nat × BitVec w)} (hwf : cellsWf lo n cells = true)
    (hwf' : cellsWf lo n cells' = true) (hat : ∀ i, cellAt? cells i = cellAt? cells' i) : cells = cells' := by
  induction cells generalizing lo cells' with
  | nil =>
    cases cells' with
    | nil => rfl
    | cons c' rest' => exact nomatch (hat c'.1).trans (cellAt?_cons_self ..)
  | cons c rest ih =>
    obtain ⟨j, v⟩ := c
    cases cells' with
    | nil => exact nomatch (hat j).symm.trans (cellAt?_cons_self ..)
    | cons c' rest' =>
      obtain ⟨j', v'⟩ := c'
      have hle : j ≤ j' := head_le_of_cellAt? hwf ((hat j').trans (cellAt?_cons_self ..))
      have hge : j' ≤ j := head_le_of_cellAt? hwf' ((hat j).symm.trans (cellAt?_cons_self ..))
      obtain rfl : j = j' := le_antisymm hle hge
      obtain ⟨-, -, hrest⟩ := (cellsWf_cons ..).1 hwf
      obtain ⟨-, -, hrest'⟩ := (cellsWf_cons ..).1 hwf'
      have hhead : v = v' := by simpa using hat j
      have htail : rest = rest' := ih hrest hrest' fun i => by
        by_cases hi : j = i
        · rw [cellAt?_eq_none_of_wf hrest (.inr (by omega)), cellAt?_eq_none_of_wf hrest' (.inr (by omega))]
        · simpa only [cellAt?_cons, if_neg hi] using hat i
      rw [hhead, htail]

/-- Settles O44: `cells_ext` for each of the three buffers. -/
theorem canonicalMemoriesAreEqualData : Obligations.CanonicalMemoriesAreEqualData := by
  unfold Obligations.CanonicalMemoriesAreEqualData
  intro m m' hwf hwf' hraw hluma hout
  obtain ⟨hr, hl, ho⟩ := (memory_wf_iff m).1 hwf
  obtain ⟨hr', hl', ho'⟩ := (memory_wf_iff m').1 hwf'
  cases m
  cases m'
  exact (Memory.mk.injEq ..).mpr ⟨cells_ext hr hr' hraw, cells_ext hl hl' hluma, cells_ext ho ho' hout⟩

/-! ### The invariant -/

/-- What the host has read, the moves to come and the counter of free choices are no part of the invariant. -/
theorem inv_of_passed {s : State} (hinv : s.Inv) (rest : List Input) (observed : List Observation) (draws : Nat) :
    State.Inv { s with inputs := rest, observed := observed, draws := draws } :=
  { hinv with }

theorem inv_withInputs {s : State} (hinv : s.Inv) (rest : List Input) : (s.withInputs rest).Inv :=
  { hinv with }

theorem inv_acceptCommand {s : State} (hinv : s.Inv) (hp : s.phase = .idle) (c : CmdWord) : (acceptCommand c s).Inv :=
  { hinv with
    capReq_iff := by simp [hinv.capReq_iff, hp]
    done_idle := nofun
    code_ok := fun _ => rfl
    idle_no_races := nofun }

theorem inv_requestCapture {s : State} (hinv : s.Inv) (hbusy : s.phase ≠ .idle) : (requestCapture s).Inv :=
  { hinv with
    capReq_iff := rfl
    done_idle := fun hdone => absurd (hinv.done_idle hdone) hbusy
    idle_no_races := nofun }

/-- The end of a command, whatever its status, where no capture is asked for any longer. -/
theorem inv_complete {s : State} (hwf : s.mem.wf = true) (hreq : s.capReq = false) (hd : s.capDone = none) (c : Code) :
    (complete c s).Inv where
  mem_wf := hwf
  capReq_iff := hreq
  done_idle := fun _ => rfl
  code_ok := nofun
  no_answer := hd
  idle_no_races := fun _ => rfl
  races_lt := nofun

theorem inv_enterConvert {s : State} (hinv : s.Inv) (hbusy : s.phase ≠ .idle) (a : CapAnswer) :
    (enterConvert a s).Inv :=
  { hinv with
    mem_wf := fillRaw_wf hinv.mem_wf a.frame.at
    capReq_iff := rfl
    done_idle := fun hdone => absurd (hinv.done_idle hdone) hbusy
    no_answer := rfl
    idle_no_races := nofun }

theorem inv_converted {s : State} (hinv : s.Inv) (hp : s.phase = .convert) : s.converted.Inv :=
  { hinv with
    mem_wf := fillLuma_wf hinv.mem_wf _
    capReq_iff := by simp [hinv.capReq_iff, hp]
    done_idle := fun hdone => nomatch hp.symm.trans (hinv.done_idle hdone)
    idle_no_races := nofun }

theorem inv_putOut {s : State} (hinv : s.Inv) {i : Nat} (hlt : i < Config.nOut) (v : Byte) : (s.putOut i v).Inv :=
  { hinv with mem_wf := putOut_wf hinv.mem_wf hlt v }

theorem inv_putOutRaced {s : State} (hinv : s.Inv) (hbusy : s.phase ≠ .idle) {i : Nat} (hlt : i < Config.nOut)
    (v : Byte) : (s.putOutRaced i v).Inv :=
  { inv_putOut hinv hlt v with
    idle_no_races := fun hp => absurd hp hbusy
    races_lt := List.forall_mem_cons.2 ⟨hlt, hinv.races_lt⟩ }

theorem inv_putRaw {s : State} (hinv : s.Inv) {i : Nat} (hlt : i < Config.nPix) (v : Pixel) : (s.putRaw i v).Inv :=
  { hinv with mem_wf := putRaw_wf hinv.mem_wf hlt v }

theorem inv_afterReset {s : State} (hwf : s.mem.wf = true) : s.afterReset.Inv where
  mem_wf := memAfterReset_wf hwf
  capReq_iff := rfl
  done_idle := nofun
  code_ok := fun _ => rfl
  no_answer := rfl
  idle_no_races := fun _ => rfl
  races_lt := nofun

/-- Where no capture waits, none is asked for (10_state.md R29 e). -/
theorem capReq_of_phase {s : State} (hinv : s.Inv) (hp : s.phase ≠ .capture) : s.capReq = false :=
  hinv.capReq_iff.trans (decide_eq_false hp)

theorem inv_of_turn {s t : State} (hinv : s.Inv) (h : TurnEffect s t) : t.Inv := by
  cases h with
  | rested | waited => exact hinv
  | requested hp => exact inv_requestCapture hinv (by simp [hp])
  | requestRefused hp => exact inv_complete hinv.mem_wf (capReq_of_phase hinv (by simp [hp])) hinv.no_answer _
  | captured a _ hd | captureFailed a _ hd => exact nomatch hinv.no_answer.symm.trans hd
  | converted hp => exact inv_converted hinv hp
  | delivered hp =>
    have hreq : s.capReq = false := capReq_of_phase hinv (by simp [hp])
    exact inv_complete (s := s.sampled) (fillOut_wf hinv.mem_wf s.resampled) hreq hinv.no_answer _

/-- An answer in CAPTURE is consumed by the turn it brings about. -/
theorem inv_of_answer {s t : State} (hinv : s.Inv) (hp : s.phase = .capture) (a : CapAnswer)
    (h : TurnEffect (s.presentAnswer a) t) : t.Inv := by
  have hbusy : s.phase ≠ .idle := by simp [hp]
  cases h with
  | rested hp' => exact absurd hp' hbusy
  | requested hp' | requestRefused hp' | converted hp' | delivered hp' => exact nomatch hp.symm.trans hp'
  | waited _ hd => exact nomatch hd
  | captured b => exact inv_enterConvert hinv hbusy b
  | captureFailed b =>
    exact inv_complete (s := endCapture b (s.presentAnswer a)) (fillRaw_wf hinv.mem_wf b.frame.at) rfl rfl _

/-- Settles O42: effect by effect, each by the lemma of its operation. -/
theorem everyStepKeepsTheInvariant : Obligations.EveryStepKeepsTheInvariant := by
  unfold Obligations.EveryStepKeepsTheInvariant
  intro s t hinv h
  cases step_effect h with
  | passed _ rest observed draws => exact inv_of_passed hinv rest observed draws
  | accepted c rest _ hp => exact inv_acceptCommand (inv_withInputs hinv rest) hp c
  | outWritten i v rest _ hlt => exact inv_putOut (inv_withInputs hinv rest) hlt v
  | outRaced i v rest _ hlt hp => exact inv_putOutRaced (inv_withInputs hinv rest) hp hlt v
  | rawWritten i v rest _ hlt => exact inv_putRaw (inv_withInputs hinv rest) hlt v
  | aborted rest => exact inv_afterReset (s := s.withInputs rest) hinv.mem_wf
  | turned rest _ hturn => exact inv_of_turn (inv_withInputs hinv rest) hturn
  | answered a rest _ hreq hturn =>
    have hp : s.phase = .capture := phase_of_capReq hinv hreq
    exact inv_of_answer (inv_withInputs hinv rest) hp a hturn

/-- Settles O41: every clause is a fact about `State.reset`. -/
theorem resetMeetsTheInvariant : Obligations.ResetMeetsTheInvariant := by
  unfold Obligations.ResetMeetsTheInvariant
  exact ⟨reset_mem_wf, rfl, nofun, fun _ => rfl, rfl, fun _ => rfl, nofun⟩

end Sys2Proof.Machine

/-! PROOFS. What a step can change and why: the phase (42_pipeline.md section 5), the three buffers (10_state.md section
6) and the latches (10_state.md section 4). -/

namespace Sys2Proof.Machine

/-! ### The phase -/

/-- CHECK goes on when the request is not checked or is the supported one. -/
theorem check_passes_iff (s : State) : (s.legacyUnchecked || s.requestSupported) = true ↔
    s.legacyUnchecked = true ∨ (s.cmdW = 32#12 ∧ s.cmdH = 32#12 ∧ s.cmdCh = 1#8) := by
  rw [Bool.or_eq_true, requestSupported_iff]

/-- A turn that changes the phase follows an edge of the table, out of CAPTURE with an answer, and out of CHECK as the
request decides. -/
theorem turn_phase {s t : State} (h : TurnEffect s t) (hne : t.phase ≠ s.phase) :
    PhaseEdge s.phase t.phase = true ∧ s.phase ≠ .idle ∧ (s.phase = .capture → s.capDone ≠ none) ∧
      (s.phase = .check → (t.phase = .capture ↔ (s.legacyUnchecked || s.requestSupported) = true)) := by
  cases h with
  | rested | waited => exact absurd rfl hne
  | requested hp hpass => simp [hp, hpass, PhaseEdge]
  | requestRefused hp hrefuse => simp [hp, hrefuse, PhaseEdge]
  | captured a hp hd | captureFailed a hp hd => simp [hp, hd, PhaseEdge]
  | converted hp | delivered hp => simp [hp, PhaseEdge]

/-- Settles O46: only acceptance, a reset and the controller's turn change the phase; without an answer the turn waits
in CAPTURE. -/
theorem phaseMovesOnlyAlongTheTable : Obligations.PhaseMovesOnlyAlongTheTable := by
  unfold Obligations.PhaseMovesOnlyAlongTheTable
  intro s t hinv h hne
  cases step_effect h with
  | passed | outWritten | outRaced | rawWritten => exact absurd rfl hne
  | accepted c rest hi hp => exact .inr (by simp [hp, hi, PhaseEdge])
  | aborted rest hi => exact .inl (by simp [hi])
  | turned rest _ hturn =>
    obtain ⟨hedge, hidle, hcapture, hcheck⟩ := turn_phase hturn hne
    exact .inr ⟨hedge, fun hp => absurd hp hidle, fun hp => absurd hinv.no_answer (hcapture hp),
      fun hp => (hcheck hp).trans (check_passes_iff s)⟩
  | answered a rest hi _ hturn =>
    obtain ⟨hedge, hidle, -, hcheck⟩ := turn_phase hturn hne
    exact .inr ⟨hedge, fun hp => absurd hp hidle, fun _ => ⟨a, by simp [hi]⟩,
      fun hp => (hcheck hp).trans (check_passes_iff s)⟩

/-! ### The buffers -/

theorem turn_outAt {s t : State} (h : TurnEffect s t) (hp : s.phase ≠ .resample) (j : Nat) : t.outAt j = s.outAt j := by
  cases h with
  | rested | requested | requestRefused | waited | captured | captureFailed | converted => rfl
  | delivered hp' => exact absurd hp' hp

theorem turn_lumaAt {s t : State} (h : TurnEffect s t) (hp : s.phase ≠ .convert) (i : Nat) :
    t.lumaAt i = s.lumaAt i := by
  cases h with
  | rested | requested | requestRefused | waited | captured | captureFailed | delivered => rfl
  | converted hp' => exact absurd hp' hp

theorem turn_rawAt {s t : State} (h : TurnEffect s t) (hd : s.phase = .capture → s.capDone = none) (i : Nat) :
    t.rawAt i = s.rawAt i := by
  cases h with
  | rested | requested | requestRefused | waited | converted | delivered => rfl
  | captured a hp hd' | captureFailed a hp hd' => exact nomatch (hd hp).symm.trans hd'

/-- A write that changes an element is a write of that element. -/
theorem putOut_index {s : State} {i j : Nat} {v : Byte} (hne : (s.putOut i v).outAt j ≠ s.outAt j) : j = i :=
  by_contra fun hj => hne (outAt_putOut_other s v hj)

theorem putRaw_index {s : State} {i k : Nat} {v : Pixel} (hne : (s.putRaw i v).rawAt k ≠ s.rawAt k) : k = i :=
  by_contra fun hk => hne (rawAt_putRaw_other s v hk)

/-- Settles O49: the host's writes and RESAMPLE are the effects that touch `OUT`; a reset touches it in RESAMPLE. -/
theorem outIsWrittenOnlyByResampleAndHost : Obligations.OutIsWrittenOnlyByResampleAndHost := by
  unfold Obligations.OutIsWrittenOnlyByResampleAndHost
  intro s t j h hne
  rw [or_iff_not_imp_left]
  intro hp
  cases step_effect h with
  | passed | accepted | rawWritten => exact absurd rfl hne
  | outWritten i v rest hi | outRaced i v rest hi =>
    obtain rfl := putOut_index (s := s.withInputs rest) hne
    exact ⟨v, by simp [hi], outAt_putOut_self (s.withInputs rest) j v⟩
  | aborted rest => exact absurd (afterReset_outAt_of_ne_resample (s := s.withInputs rest) hp j) hne
  | turned rest _ hturn | answered a rest _ _ hturn => exact absurd (turn_outAt hturn hp j) hne

/-- Settles O50: beside a reset, CONVERT is the one effect that touches `LUMA`. -/
theorem lumaIsWrittenOnlyByConvert : Obligations.LumaIsWrittenOnlyByConvert := by
  unfold Obligations.LumaIsWrittenOnlyByConvert
  intro s t i h hne
  rw [or_iff_not_imp_left]
  intro hp
  cases step_effect h with
  | passed | accepted | outWritten | outRaced | rawWritten => exact absurd rfl hne
  | aborted rest hi => simp [hi]
  | turned rest _ hturn | answered a rest _ _ hturn => exact absurd (turn_lumaAt hturn hp i) hne

/-- Settles O51: the FrameSource's write and its answer touch `RAW`; both need `CAP_REQ`, so they fall in CAPTURE. -/
theorem rawIsWrittenOnlyByTheFrameSource : Obligations.RawIsWrittenOnlyByTheFrameSource := by
  unfold Obligations.RawIsWrittenOnlyByTheFrameSource
  intro s t i hinv h hne
  cases step_effect h with
  | passed | accepted | outWritten | outRaced => exact absurd rfl hne
  | rawWritten k v rest hi _ hreq =>
    obtain rfl := putRaw_index (s := s.withInputs rest) hne
    exact .inl ⟨phase_of_capReq hinv hreq, .inl ⟨v, by simp [hi]⟩⟩
  | aborted rest hi => simp [hi]
  | turned rest _ hturn => exact absurd (turn_rawAt hturn (fun _ => hinv.no_answer) i) hne
  | answered a rest hi hreq => exact .inl ⟨phase_of_capReq hinv hreq, .inr ⟨a, by simp [hi]⟩⟩

/-! ### The latches and the parameters -/

theorem turn_latches {s t : State} (h : TurnEffect s t) :
    t.cmdW = s.cmdW ∧ t.cmdH = s.cmdH ∧ t.cmdCh = s.cmdCh ∧ t.legacyUnchecked = s.legacyUnchecked ∧
      t.cmdMisuseRefused = s.cmdMisuseRefused := by
  cases h <;> exact ⟨rfl, rfl, rfl, rfl, rfl⟩

theorem step_parameters {s t : State} (h : step s = .next t) :
    t.legacyUnchecked = s.legacyUnchecked ∧ t.cmdMisuseRefused = s.cmdMisuseRefused := by
  cases step_effect h with
  | passed | accepted | outWritten | outRaced | rawWritten | aborted => exact ⟨rfl, rfl⟩
  | turned rest _ hturn | answered a rest _ _ hturn =>
    obtain ⟨-, -, -, hparameters⟩ := turn_latches hturn
    exact hparameters

/-- Settles O52: beside a reset, acceptance is the one effect that writes a latch. -/
theorem latchesAreWrittenOnlyByAcceptance : Obligations.LatchesAreWrittenOnlyByAcceptance := by
  unfold Obligations.LatchesAreWrittenOnlyByAcceptance
  intro s t h
  obtain ⟨hlegacy, hmisuse⟩ := step_parameters h
  refine ⟨hlegacy, hmisuse, fun hne => ?_⟩
  cases step_effect h with
  | passed | outWritten | outRaced | rawWritten => exact absurd hne (by simp)
  | accepted c rest hi hp => exact .inl ⟨hp, c, by simp [hi]⟩
  | aborted rest hi => exact .inr (by simp [hi])
  | turned rest _ hturn | answered a rest _ _ hturn =>
    obtain ⟨hw, hh, hc, -⟩ := turn_latches hturn
    exact (hne.elim (· hw) (·.elim (· hh) (· hc))).elim

end Sys2Proof.Machine

/-! PROOFS. The encoding (30_encoding.md sections 1 to 5 and 7): decoding and encoding are inverse, and every
well-formed instruction has a next state. -/

namespace Sys2Proof.Machine

/-! ### Decoding and encoding -/

theorem decode_cmd (c : CmdWord) : decode (.cmd c) = .ok (decodeCmd c) := rfl

theorem wellFormed_getimage_iff (w h ch : Nat) :
    (Instr.getimage w h ch).wellFormed = true ↔ w ≤ 4095 ∧ h ≤ 4095 ∧ ch ≤ 255 := by
  simp [Instr.wellFormed, and_assoc]

/-- R50, R57: the fields of the packed word are the operands, none of them truncated. -/
theorem decodeCmd_packCmd {w h ch : Nat} (hw : w ≤ 4095) (hh : h ≤ 4095) (hc : ch ≤ 255) :
    decodeCmd (packCmd w h ch) = .getimage w h ch := by
  rw [decodeCmd_eq, packCmd_toNat hw hh hc, Instr.getimage.injEq]
  omega

/-- Settles O3: a GETIMAGE by its packed word, a stage operation by its row of the table. -/
theorem decodeOfEncodeIsTheInstruction : Obligations.DecodeOfEncodeIsTheInstruction := by
  unfold Obligations.DecodeOfEncodeIsTheInstruction
  intro i hwf
  cases i with
  | getimage w h ch =>
    obtain ⟨hw, hh, hc⟩ := (wellFormed_getimage_iff w h ch).1 hwf
    exact congrArg Except.ok (decodeCmd_packCmd hw hh hc)
  | check | capture | convert | resample => rfl

/-- R53: a value of `PHASE` that selects an operation is the one that operation is encoded by. -/
theorem encode_of_decodePhase {p : PhaseBits} {i : Instr} (h : decodePhase p = .ok i) :
    i.wellFormed = true ∧ encode i = .phase p := by
  unfold decodePhase at h
  split_ifs at h with hidle hcheck hcapture hconvert hresample
  all_goals
    cases h
    subst p
    exact ⟨rfl, rfl⟩

/-- Settles O4: the fields of a command word pack to it again, and `PHASE` is settled by its table. -/
theorem encodeOfDecodeIsTheWord : Obligations.EncodeOfDecodeIsTheWord := by
  unfold Obligations.EncodeOfDecodeIsTheWord
  intro f i h
  cases f with
  | cmd c =>
    cases h
    exact ⟨decodeCmd_wellFormed c, congrArg OpWord.cmd (packCmd_fields c)⟩
  | phase p => exact encode_of_decodePhase h

/-- Settles O5: the decoder evaluated at each word. -/
theorem tableWordsDecode : Obligations.TableWordsDecode := by
  unfold Obligations.TableWordsDecode
  exact ⟨rfl, rfl, rfl, rfl, rfl, rfl, rfl, rfl, rfl, rfl, rfl, rfl⟩

/-! ### Which instructions have a next state -/

/-- Settles O7: such a GETIMAGE is not well formed. -/
theorem unrepresentableRequestIsRefused : Obligations.UnrepresentableRequestIsRefused := by
  unfold Obligations.UnrepresentableRequestIsRefused
  intro s w h ch hbig
  refine execGetimage_unrepresentable (Bool.eq_false_iff.2 fun hwf => ?_)
  obtain ⟨hw, hh, hc⟩ := (wellFormed_getimage_iff w h ch).1 hwf
  omega

theorem execCheck_next (s : State) : ∃ t, execCheck s = .next t := by
  cases hpass : s.legacyUnchecked || s.requestSupported with
  | true => exact ⟨_, execCheck_pass hpass⟩
  | false => exact ⟨_, execCheck_refuse hpass⟩

theorem execCapture_next (s : State) : ∃ t, execCapture s = .next t := by
  cases hd : s.capDone with
  | none => exact ⟨_, execCapture_wait hd⟩
  | some a =>
    cases hok : s.legacyUnchecked || a.capOk with
    | true => exact ⟨_, execCapture_ok hd hok⟩
    | false => exact ⟨_, execCapture_fail hd hok⟩

/-- Settles O16: GETIMAGE is accepted or ignored, CHECK and CAPTURE end in one of their branches, and the other two have
one branch. -/
theorem wellFormedInstructionsComplete : Obligations.WellFormedInstructionsComplete := by
  unfold Obligations.WellFormedInstructionsComplete
  intro i s hwf
  cases i with
  | getimage w h ch =>
    by_cases hp : s.phase = .idle
    · exact ⟨_, execGetimage_idle hwf hp⟩
    · exact ⟨_, execGetimage_busy hwf hp⟩
  | check => exact execCheck_next s
  | capture => exact execCapture_next s
  | convert => exact ⟨_, exec_convert s⟩
  | resample => exact ⟨_, exec_resample s⟩

end Sys2Proof.Machine

/-! PROOFS. The ColorConverter and the Resampler: monotonicity of the luma and the tables (40_colorconverter.md section
2), the source addresses (41_resampler.md sections 2 and 4) and what RESAMPLE makes of a given `LUMA` (sections 3
and 4). -/

namespace Sys2Proof.Machine

/-! ### The luma -/

/-- Settles O24: every operation of the formula, scaling, floor division, weighting and adding, is monotone. -/
theorem lumaIsMonotone : Obligations.LumaIsMonotone := by
  unfold Obligations.LumaIsMonotone
  intro p q hred hgreen hblue
  rw [lumaOf_toNat, lumaOf_toNat]
  gcongr

/-- Settles O20: the formula evaluated at every entry. -/
theorem normalizeTablesAreTheFormula : Obligations.NormalizeTablesAreTheFormula := by
  unfold Obligations.NormalizeTablesAreTheFormula
  exact ⟨rfl, rfl, by decide, by decide⟩

/-! ### The source coordinates -/

theorem srcX_eq (x : Nat) : srcX x = 11 * x / 2 := by
  simp only [srcX, srcCoord, Config.srcW, Config.outW]
  omega

theorem srcY_eq (y : Nat) : srcY y = 9 * y / 2 := by
  simp only [srcY, srcCoord, Config.srcH, Config.outH]
  omega

theorem srcAddr_eq (x y : Nat) : srcAddr x y = 9 * y / 2 * 176 + 11 * x / 2 := by
  rw [srcAddr, srcX_eq, srcY_eq]

/-- Settles O26: the reduced forms, and the tables by `lutX_eq_srcX` and `lutY_eq_srcY`. -/
theorem sourceCoordinatesAreTheTables : Obligations.SourceCoordinatesAreTheTables := by
  unfold Obligations.SourceCoordinatesAreTheTables
  exact fun d hd => ⟨rfl, srcX_eq d, lutX_eq_srcX d hd, rfl, srcY_eq d, lutY_eq_srcY d hd⟩

/-- R83: a coordinate inside the output is mapped inside the source. -/
theorem srcCoord_lt {srcSize outSize d : Nat} (hd : d < outSize) (hpos : 0 < srcSize) :
    srcCoord srcSize outSize d < srcSize :=
  Nat.div_lt_of_lt_mul (Nat.mul_lt_mul_of_pos_right hd hpos)

/-- Settles O27: the bounds by the reduced forms. -/
theorem sourceAddressesAreInRange : Obligations.SourceAddressesAreInRange := by
  unfold Obligations.SourceAddressesAreInRange
  refine ⟨fun x y hx hy => ?_, fun _ _ _ hd hpos => srcCoord_lt hd hpos⟩
  rw [srcX_eq, srcY_eq, srcAddr_eq]
  omega

/-- Settles O28: the column is below the row length 176, so the address settles row and column, and each coordinate
steps by at least 4. -/
theorem sourceAddressesAreDistinct : Obligations.SourceAddressesAreDistinct := by
  unfold Obligations.SourceAddressesAreDistinct
  intro x y x' y' hx _ hx' _ heq
  rw [srcAddr_eq, srcAddr_eq] at heq
  have hrow : 9 * y / 2 = 9 * y' / 2 := by omega
  have hcolumn : 11 * x / 2 = 11 * x' / 2 := by omega
  omega

/-! ### RESAMPLE -/

/-- R79: where the host left `OUT` alone every element holds its sample. -/
theorem sampled_outAt_sample {s : State} (hraces : s.outRaces = []) {j : Nat} (hj : j < Config.nOut) :
    (complete .ok s.sampled).outAt j = s.lumaAt (srcAddrOf j) :=
  (sampled_outAt hj).trans (resampled_of_not_raced (hraces ▸ List.not_mem_nil))

/-- Settles O29: every sample is an element of `LUMA`. -/
theorem uniformLumaGivesUniformTensor : Obligations.UniformLumaGivesUniformTensor := by
  unfold Obligations.UniformLumaGivesUniformTensor
  refine fun s v hraces hluma => ⟨_, exec_resample s, fun j hj => ?_⟩
  rw [sampled_outAt_sample hraces hj, hluma _ (srcAddrOf_lt hj)]

/-- Settles O30: a cell of 11 columns by 9 rows is sampled by exactly 2 by 2 output pixels. -/
theorem checkerboardScales : Obligations.CheckerboardScales := by
  unfold Obligations.CheckerboardScales
  refine fun s u v hraces hluma => ⟨_, exec_resample s, fun x y hx hy => ?_⟩
  have hcolumn : srcX x < 176 ∧ srcX x / 11 = x / 2 := by rw [srcX_eq]; omega
  have hrow : srcY y < 144 ∧ srcY y / 9 = y / 2 := by rw [srcY_eq]; omega
  rw [sampled_outAt_pixel hraces hx hy, hluma _ _ hcolumn.1 hrow.1, hcolumn.2, hrow.2]

/-- Settles O31: element `y * 32 + x` of either tensor is the sample the two states share. -/
theorem resampleDependsOnSamplesAlone : Obligations.ResampleDependsOnSamplesAlone := by
  unfold Obligations.ResampleDependsOnSamplesAlone
  refine fun s s' hraces hraces' hsamples => ⟨_, _, exec_resample s, exec_resample s', fun j hj => ?_⟩
  have hx : j % 32 < 32 := Nat.mod_lt j (by decide)
  have hy : j / 32 < 32 := Nat.div_lt_of_lt_mul hj
  have hpixel : j / 32 * 32 + j % 32 = j := Nat.div_add_mod' j 32
  rw [← hpixel, sampled_outAt_pixel hraces hx hy, sampled_outAt_pixel hraces' hx hy]
  exact hsamples _ _ hx hy

/-- Settles O15: the fields of `State.converted` and `State.sampled`. -/
theorem workingRegistersHoldTheLastElement : Obligations.WorkingRegistersHoldTheLastElement := by
  unfold Obligations.WorkingRegistersHoldTheLastElement
  exact fun s => ⟨⟨_, exec_convert s, rfl, rfl⟩, ⟨_, exec_resample s, rfl, rfl⟩⟩

end Sys2Proof.Machine

/-! PROOFS. The host's and the FrameSource's moves as steps (10_state.md section 4, 20_memory.md sections 5 and 7,
42_pipeline.md section 3), what a step runs (30_encoding.md section 4) and `LEGACY_UNCHECKED` (42_pipeline.md R99). -/

namespace Sys2Proof.Machine

/-! ### `STATUS` -/

/-- Settles O33: a busy block reads 1; in IDLE `DONE` and `CODE` settle the word; without `DONE` there is no code. -/
theorem statusTakesFiveValues : Obligations.StatusTakesFiveValues := by
  unfold Obligations.StatusTakesFiveValues
  intro s hinv
  by_cases hp : s.phase = .idle
  case neg => exact .inr (.inl (statusWord_of_busy hinv hp))
  cases hd : s.done with
  | false =>
    rw [statusWord_of hp hd (hinv.code_ok hd)]
    exact .inl rfl
  | true =>
    rw [statusWord_of hp hd rfl]
    cases s.code with
    | ok => exact .inr (.inr (.inl rfl))
    | captureFailure => exact .inr (.inr (.inr (.inl rfl)))
    | unsupportedResolution => exact .inr (.inr (.inr (.inr rfl)))

/-! ### `CMD` -/

/-- 42_pipeline.md R86: acceptance, with the latched fields as numbers. -/
theorem acceptCommand_eq (c : CmdWord) (s : State) : acceptCommand c s = { s with
    cmdW := BitVec.ofNat 12 (c.toNat % 4096)
    cmdH := BitVec.ofNat 12 (c.toNat / 4096 % 4096)
    cmdCh := BitVec.ofNat 8 (c.toNat / 16777216)
    done := false, code := .ok, phase := .check } := by
  rw [acceptCommand, ← cmdFieldW_toNat, ← cmdFieldH_toNat, ← cmdFieldCh_toNat, BitVec.ofNat_toNat, BitVec.ofNat_toNat,
    BitVec.ofNat_toNat, BitVec.setWidth_eq, BitVec.setWidth_eq, BitVec.setWidth_eq]

/-- Settles O9: acceptance in IDLE; while BUSY the two settings of log 2. -/
theorem commandWriteStepsIntoCheck : Obligations.CommandWriteStepsIntoCheck := by
  unfold Obligations.CommandWriteStepsIntoCheck
  intro s c rest hi
  rw [step_cons hi]
  refine ⟨fun hp => ⟨_, applyInput_cmdWrite_idle c hp, ?_, acceptCommand_eq c _⟩,
    fun hp hr => applyInput_cmdWrite_refused c hp hr, fun hp hr => applyInput_cmdWrite_ignored c hp hr⟩
  exact statusWord_of (acceptCommand_phase c (s.withInputs rest)) (acceptCommand_done c _) (acceptCommand_code c _)

/-- Settles O34: the two settings of log 4. -/
theorem readOfCmdChangesNothing : Obligations.ReadOfCmdChangesNothing := by
  unfold Obligations.ReadOfCmdChangesNothing
  intro s rest hi
  rw [step_cons hi]
  exact ⟨fun hr => applyInput_cmdRead_refused hr, fun hr => ⟨_, applyInput_cmdRead_answered hr⟩⟩

/-! ### `OUT` and `RAW` -/

/-- Settles O35: the accesses in IDLE by `readOut_idle` and `writeOut_idle`. -/
theorem hostOwnsOutInIdle : Obligations.HostOwnsOutInIdle := by
  unfold Obligations.HostOwnsOutInIdle
  refine fun s i rest hp hlt => ⟨fun hi => ?_, fun v hi => ?_⟩
  · exact (step_cons hi).trans (readOut_idle hlt hp)
  · have hstep : step s = .next ((s.withInputs rest).putOut i v) := (step_cons hi).trans (writeOut_idle hlt hp)
    exact ⟨_, hstep, outAt_putOut_self .., fun _ hj => outAt_putOut_other _ v hj, fun _ => rfl, fun _ => rfl, rfl⟩

/-- Settles O36: the write by `writeRaw_capture`; outside a capture it is refused (log 15). -/
theorem frameSourceWritesRawOnlyInCapture : Obligations.FrameSourceWritesRawOnlyInCapture := by
  unfold Obligations.FrameSourceWritesRawOnlyInCapture
  refine fun s i v rest hi => ⟨fun hreq hlt => ?_, fun hreq => (step_cons hi).trans (writeRaw_refused hreq)⟩
  have hstep : step s = .next ((s.withInputs rest).putRaw i v) := (step_cons hi).trans (writeRaw_capture hreq hlt)
  exact ⟨_, hstep, rawAt_putRaw_self .., fun _ hk => rawAt_putRaw_other _ v hk, fun _ => rfl, fun _ => rfl, rfl⟩

/-- Settles O37: where `CAP_REQ` is 0 no turn follows the answer (R87). -/
theorem spuriousAnswerIsIgnored : Obligations.SpuriousAnswerIsIgnored := by
  unfold Obligations.SpuriousAnswerIsIgnored
  exact fun s a rest hi hreq => (step_cons hi).trans (applyInput_capDone_ignored hreq)

/-! ### What a step runs -/

/-- A word written to `CMD` is run wherever it is not refused (log 2). -/
theorem applyInput_cmdWrite_run {s : State} (c : CmdWord) (h : s.busy = false ∨ s.cmdMisuseRefused = false) :
    applyInput (.cmdWrite c) s = runOpWord (.cmd c) s :=
  if_neg (by rcases h with h | h <;> simp [h])

/-- Settles O38: the bits of `PHASE` on a turn or an answer, and a written word, are run as what they decode to. -/
theorem stepRunsTheDecodedInstruction : Obligations.StepRunsTheDecodedInstruction := by
  unfold Obligations.StepRunsTheDecodedInstruction
  refine fun s i => ⟨fun hdecode => ⟨fun hi => ?_, fun rest hi => ?_, fun a rest hi hreq => ?_⟩,
    fun c rest hdecode hi => ⟨fun hrun => ?_, fun hp hr => ?_⟩, fun hp => ⟨fun hi => ?_, fun rest hi => ?_⟩⟩
  · exact (step_nil hi).trans (runOpWord_of_decode hdecode s)
  · exact (step_cons hi).trans (runOpWord_of_decode hdecode (s.withInputs rest))
  · have hanswer : step s = controllerTurn ((s.withInputs rest).presentAnswer a) :=
      (step_cons hi).trans (applyInput_capDone hreq)
    exact hanswer.trans (runOpWord_of_decode hdecode _)
  · have hword : step s = runOpWord (.cmd c) (s.withInputs rest) :=
      (step_cons hi).trans (applyInput_cmdWrite_run c (hrun.imp_left not_busy_iff.2))
    exact hword.trans (runOpWord_of_decode hdecode _)
  · exact (step_cons hi).trans (applyInput_cmdWrite_refused c hp hr)
  · exact (step_nil hi).trans (controllerTurn_idle hp)
  · exact (step_cons hi).trans (controllerTurn_idle (s := s.withInputs rest) hp)

/-- A table row of 32 bits that decodes is a command word (log 16). -/
theorem decodeTableWord_cmd {w : Nat} {i : Instr} (h : decodeTableWord 32 w = some i) :
    ∃ c, opWordOfTable 32 w = .ok (.cmd c) ∧ decode (.cmd c) = .ok i := by
  by_cases hw : w < 2 ^ 32
  · have hword : opWordOfTable 32 w = .ok (.cmd (BitVec.ofNat 32 w)) := if_pos hw
    simp only [decodeTableWord, hword, decode_cmd, Option.some.injEq] at h
    exact ⟨_, hword, congrArg Except.ok h⟩
  · have hword : opWordOfTable 32 w = .error .noSuchFormat := if_neg hw
    simp [decodeTableWord, hword] at h

/-- A table row of 8 bits that decodes is a value of `PHASE` (log 16). -/
theorem decodeTableWord_phase {w : Nat} {i : Instr} (h : decodeTableWord 8 w = some i) :
    ∃ p, opWordOfTable 8 w = .ok (.phase p) ∧ decode (.phase p) = .ok i := by
  by_cases hw : w < 2 ^ 3
  · have hword : opWordOfTable 8 w = .ok (.phase (BitVec.ofNat 3 w)) := if_pos hw
    refine ⟨_, hword, ?_⟩
    cases hdecode : decode (.phase (BitVec.ofNat 3 w)) with
    | ok j => simpa [decodeTableWord, hword, hdecode] using h
    | error e => simp [decodeTableWord, hword, hdecode] at h
  · have hword : opWordOfTable 8 w = .error .noSuchFormat := if_neg hw
    simp [decodeTableWord, hword] at h

/-- R53: a value of `PHASE` that selects an operation is the code of a phase. -/
theorem phaseOfBits_of_decode {p : PhaseBits} {i : Instr} (h : decode (.phase p) = .ok i) :
    ∃ phase, phaseOfBits p = some phase ∧ phase.bits = p := by
  simp only [decode, decodePhase] at h
  split_ifs at h with hidle hcheck hcapture hconvert hresample
  all_goals
    subst p
    exact ⟨_, rfl, rfl⟩

/-- Settles O39: a fetched command word is a move that is run, for the setting is off or the block in IDLE; a fetched
stage operation is selected by the phase it is the code of. -/
theorem fetchedWordRunsNext : Obligations.FetchedWordRunsNext := by
  unfold Obligations.FetchedWordRunsNext
  refine fun s w i => ⟨fun h => ?_, fun h => ?_⟩
  · obtain ⟨c, hword, hdecode⟩ := decodeTableWord_cmd h
    have hfetch : s.withFetchWord 32 w =
        { s with inputs := .cmdWrite c :: s.inputs, cmdMisuseRefused := s.cmdMisuseRefused && !s.busy } := by
      simp only [State.withFetchWord, hword]
    have hnot_refused : s.busy = false ∨ (s.cmdMisuseRefused && !s.busy) = false := by
      rcases Bool.eq_false_or_eq_true s.busy with hb | hb <;> simp [hb]
    have hrun := applyInput_cmdWrite_run (s := { s with cmdMisuseRefused := s.cmdMisuseRefused && !s.busy }) c
      hnot_refused
    rw [hfetch, step_cons rfl]
    exact hrun.trans (runOpWord_of_decode hdecode _)
  · obtain ⟨p, hword, hdecode⟩ := decodeTableWord_phase h
    obtain ⟨phase, hphase, rfl⟩ := phaseOfBits_of_decode hdecode
    have hfetch : s.withFetchWord 8 w =
        { s with phase := phase, capReq := decide (phase = .capture), inputs := .turn :: s.inputs } := by
      simp only [State.withFetchWord, hword, hphase]
    rw [hfetch, step_cons rfl]
    exact ⟨phase, runOpWord_of_decode hdecode _, hdecode⟩

/-- Settles O40: the fields of `State.reset`; a first word is accepted. -/
theorem resetLeavesTheBlockReady : Obligations.ResetLeavesTheBlockReady := by
  unfold Obligations.ResetLeavesTheBlockReady
  exact ⟨rfl, rfl, rfl, rfl, rfl, rfl, fun c rest => ⟨_, step_cmdWrite_idle rfl rfl, rfl⟩⟩

/-- Settles O17: with the parameter set both conditions hold whatever the latches and the answer are. -/
theorem legacyUncheckedAlwaysGoesOn : Obligations.LegacyUncheckedAlwaysGoesOn := by
  unfold Obligations.LegacyUncheckedAlwaysGoesOn
  refine fun s hlegacy => ⟨execCheck_pass (by simp [hlegacy]), fun hd => execCapture_wait hd, fun a hd => ?_⟩
  have hnext : exec .capture s = .next (enterConvert a s) := execCapture_ok hd (by simp [hlegacy])
  exact ⟨_, hnext, rfl, fun _ hi => enterConvert_rawAt a hi, fun _ => rfl, fun _ => rfl⟩

end Sys2Proof.Machine

/-! PROOFS. Where the machine stops (60_exceptions.md sections 2 and 7), that it does not while the contracts are kept
(42_pipeline.md R100), and that the stages end by themselves (42_pipeline.md section 6). -/

namespace Sys2Proof.Machine

/-! ### The stops -/

/-- How a move can end: in a next state, or in one of the named stops, each with its cause. -/
inductive MoveOutcome (s : State) : Input → Result → Prop
  | goesOn (e : Input) (t : State) : MoveOutcome s e (.next t)
  | noOutRead {i : Nat} (h : Config.nOut ≤ i) : MoveOutcome s (.outRead i) (.fault (.noSuchElement .out i))
  | noOutWrite {i : Nat} (v : Byte) (h : Config.nOut ≤ i) :
      MoveOutcome s (.outWrite i v) (.fault (.noSuchElement .out i))
  | noRawWrite {i : Nat} (v : Pixel) (h : Config.nPix ≤ i) :
      MoveOutcome s (.rawWrite i v) (.fault (.noSuchElement .raw i))
  | noRegRead {n : Nat} (h : 2 ≤ n) : MoveOutcome s (.regRead n) (.fault (.noSuchRegister n))
  | noRegWrite {n : Nat} (v : CmdWord) (h : 2 ≤ n) : MoveOutcome s (.regWrite n v) (.fault (.noSuchRegister n))
  | outsideCapture (i : Nat) (v : Pixel) (hreq : s.capReq = false) :
      MoveOutcome s (.rawWrite i v) (.refused .frameSourceOutsideCapture)
  | whileBusy (c : CmdWord) (hp : s.phase ≠ .idle) (hr : s.cmdMisuseRefused = true) :
      MoveOutcome s (.cmdWrite c) (.refused .commandWhileBusy)
  | cmdRead (hr : s.cmdMisuseRefused = true) : MoveOutcome s .cmdRead (.refused .readOfCmd)

theorem MoveOutcome.of_eq {s : State} {e : Input} {r r' : Result} (h : MoveOutcome s e r') (heq : r = r') :
    MoveOutcome s e r := heq ▸ h

theorem regWrite_outcome (n : Nat) (v : CmdWord) (s : State) : MoveOutcome s (.regWrite n v) (writeRegister n v s) := by
  rcases hostRegOf_cases n with ⟨rfl, -⟩ | ⟨rfl, -⟩ | ⟨hnone, hn⟩
  · by_cases hp : s.phase = .idle
    · exact .of_eq (.goesOn _ _) (applyInput_cmdWrite_idle v hp)
    cases hr : s.cmdMisuseRefused with
    | true => exact .of_eq (.whileBusy v hp hr) (applyInput_cmdWrite_refused v hp hr)
    | false => exact .of_eq (.goesOn _ _) (applyInput_cmdWrite_ignored v hp hr)
  · exact .of_eq (.goesOn _ _) (applyInput_statusWrite v)
  · exact .of_eq (.noRegWrite v hn) (writeRegister_fault hnone)

theorem regRead_outcome (n : Nat) (s : State) : MoveOutcome s (.regRead n) (readRegister n s) := by
  rcases hostRegOf_cases n with ⟨rfl, -⟩ | ⟨rfl, -⟩ | ⟨hnone, hn⟩
  · cases hr : s.cmdMisuseRefused with
    | true => exact .of_eq (.cmdRead hr) (applyInput_cmdRead_refused hr)
    | false => exact .of_eq (.goesOn _ _) (applyInput_cmdRead_answered hr)
  · exact .of_eq (.goesOn _ _) applyInput_statusRead
  · exact .of_eq (.noRegRead hn) (readRegister_fault hnone)

theorem outRead_outcome (i : Nat) (s : State) : MoveOutcome s (.outRead i) (readOut i s) := by
  by_cases hlt : i < Config.nOut
  case neg => exact .of_eq (.noOutRead (Nat.le_of_not_lt hlt)) (readOut_fault hlt)
  by_cases hp : s.phase = .idle
  · exact .of_eq (.goesOn _ _) (readOut_idle hlt hp)
  · exact .of_eq (.goesOn _ _) (readOut_busy hlt hp)

theorem outWrite_outcome (i : Nat) (v : Byte) (s : State) : MoveOutcome s (.outWrite i v) (writeOut i v s) := by
  by_cases hlt : i < Config.nOut
  case neg => exact .of_eq (.noOutWrite v (Nat.le_of_not_lt hlt)) (writeOut_fault hlt)
  by_cases hp : s.phase = .idle
  · exact .of_eq (.goesOn _ _) (writeOut_idle hlt hp)
  · exact .of_eq (.goesOn _ _) (writeOut_busy hlt hp)

theorem rawWrite_outcome (i : Nat) (v : Pixel) (s : State) : MoveOutcome s (.rawWrite i v) (writeRaw i v s) := by
  cases hreq : s.capReq with
  | false => exact .of_eq (.outsideCapture i v hreq) (writeRaw_refused hreq)
  | true =>
    by_cases hlt : i < Config.nPix
    · exact .of_eq (.goesOn _ _) (writeRaw_capture hreq hlt)
    · exact .of_eq (.noRawWrite v (Nat.le_of_not_lt hlt)) (writeRaw_fault hreq hlt)

theorem controllerTurn_outcome (e : Input) (s u : State) : MoveOutcome s e (controllerTurn u) := by
  obtain ⟨t, ht⟩ := controllerTurn_next u
  exact .of_eq (.goesOn e t) ht

theorem capDone_outcome (a : CapAnswer) (s : State) : MoveOutcome s (.capDone a) (applyInput (.capDone a) s) := by
  cases hreq : s.capReq with
  | false => exact .of_eq (.goesOn _ _) (applyInput_capDone_ignored hreq)
  | true => exact .of_eq (controllerTurn_outcome _ s _) (applyInput_capDone hreq)

theorem applyInput_outcome (e : Input) (s : State) : MoveOutcome s e (applyInput e s) := by
  cases e with
  | turn => exact controllerTurn_outcome _ s s
  | regWrite n v => exact regWrite_outcome n v s
  | regRead n => exact regRead_outcome n s
  | outRead i => exact outRead_outcome i s
  | outWrite i v => exact outWrite_outcome i v s
  | reset => exact .goesOn _ s.afterReset
  | rawWrite i v => exact rawWrite_outcome i v s
  | capDone a => exact capDone_outcome a s

/-- A step ends in a next state, or as the move it takes does. -/
theorem step_outcome (s : State) :
    (∃ t, step s = .next t) ∨ ∃ e rest, s.inputs = e :: rest ∧ MoveOutcome (s.withInputs rest) e (step s) := by
  cases hi : s.inputs with
  | nil => exact .inl (step_nil hi ▸ controllerTurn_next s)
  | cons e rest => exact .inr ⟨e, rest, rfl, step_cons hi ▸ applyInput_outcome e (s.withInputs rest)⟩

/-- Settles O54: each of the stops has a cause the contracts exclude. -/
theorem contractKeptNeverStops : Obligations.ContractKeptNeverStops := by
  unfold Obligations.ContractKeptNeverStops
  intro s hkept
  rcases step_outcome s with hnext | ⟨e, rest, hi, hmove⟩
  · exact hnext
  have hallowed : e.allowed s = true := by simpa [State.contractKept, hi] using hkept
  generalize step s = r at hmove ⊢
  cases hmove with
  | goesOn _ t => exact ⟨t, rfl⟩
  | noOutRead h | noOutWrite _ h | noRawWrite _ h =>
    simp only [Input.allowed, Bool.and_eq_true, decide_eq_true_eq] at hallowed
    exact absurd hallowed.2 (Nat.not_lt.2 h)
  | noRegRead h =>
    obtain rfl := of_decide_eq_true hallowed
    exact absurd h (by decide)
  | noRegWrite _ h =>
    simp only [Input.allowed, Bool.and_eq_true, decide_eq_true_eq] at hallowed
    exact absurd (hallowed.1 ▸ h) (by decide)
  | outsideCapture i v hreq => simp [Input.allowed, show s.capReq = false from hreq] at hallowed
  | whileBusy c hp => simp [Input.allowed, busy_iff.2 (show s.phase ≠ .idle from hp)] at hallowed
  | cmdRead => exact nomatch hallowed

/-- Settles O55: the stops of a step are those of its move. -/
theorem stopsComeFromOutsideTheBlock : Obligations.StopsComeFromOutsideTheBlock := by
  unfold Obligations.StopsComeFromOutsideTheBlock
  refine fun s => ⟨fun f hfault => ?_, fun r hrefused => ?_⟩
  · rcases step_outcome s with ⟨t, ht⟩ | ⟨e, rest, hi, hmove⟩
    · exact nomatch ht.symm.trans hfault
    rw [hfault] at hmove
    rw [hi]
    cases hmove with
    | noOutRead h => exact .inl ⟨_, h, rfl, .inl rfl⟩
    | noOutWrite v h => exact .inl ⟨_, h, rfl, .inr ⟨v, rfl⟩⟩
    | noRawWrite v h => exact .inr (.inl ⟨_, v, h, rfl, rfl⟩)
    | noRegRead h => exact .inr (.inr ⟨_, h, rfl, .inl rfl⟩)
    | noRegWrite v h => exact .inr (.inr ⟨_, h, rfl, .inr ⟨v, rfl⟩⟩)
  · rcases step_outcome s with ⟨t, ht⟩ | ⟨e, rest, hi, hmove⟩
    · exact nomatch ht.symm.trans hrefused
    rw [hrefused] at hmove
    rw [hi]
    cases hmove with
    | outsideCapture i v hreq => exact .inl ⟨rfl, hreq, i, v, rfl⟩
    | whileBusy c hp hr => exact .inr (.inl ⟨rfl, hp, hr, c, rfl⟩)
    | cmdRead hr => exact .inr (.inr ⟨rfl, hr, rfl⟩)

/-! ### The stages end by themselves -/

theorem stepsTo_one {s t : State} (h : step s = .next t) : stepsTo 1 s t := ⟨t, h, rfl⟩

/-- Settles O53: CHECK and RESAMPLE take one step, CONVERT is followed by RESAMPLE. -/
theorem stagesEndWithoutHelp : Obligations.StagesEndWithoutHelp := by
  unfold Obligations.StagesEndWithoutHelp
  intro s hidle hcapture hi
  cases hp : s.phase with
  | idle => exact absurd hp hidle
  | capture => exact absurd hp hcapture
  | check =>
    have hstep : step s = execCheck s := (step_nil hi).trans (controllerTurn_check hp)
    cases hpass : s.legacyUnchecked || s.requestSupported with
    | true => exact ⟨1, _, by decide, stepsTo_one (hstep.trans (execCheck_pass hpass)), .inr rfl⟩
    | false => exact ⟨1, _, by decide, stepsTo_one (hstep.trans (execCheck_refuse hpass)), .inl ⟨rfl, rfl⟩⟩
  | convert =>
    have hconvert : step s = .next s.converted := (step_nil hi).trans (controllerTurn_convert hp)
    have hresample : step s.converted = .next (complete .ok s.converted.sampled) :=
      (step_nil (s := s.converted) hi).trans (controllerTurn_resample rfl)
    exact ⟨2, _, by decide, ⟨_, hconvert, stepsTo_one hresample⟩, .inl ⟨rfl, rfl⟩⟩
  | resample =>
    have hresample : step s = .next (complete .ok s.sampled) := (step_nil hi).trans (controllerTurn_resample hp)
    exact ⟨1, _, by decide, stepsTo_one hresample, .inl ⟨rfl, rfl⟩⟩

end Sys2Proof.Machine

/-! PROOFS. Races on `OUT` (20_memory.md section 8, R46): what one access does, and that the value a read may get early
is what the command goes on to write (log 22). -/

namespace Sys2Proof.Machine

/-! ### The value foreseen -/

/-- A move on which the controller does nothing does not change when its next turn comes. -/
theorem turnAhead_skip {e : Input} {capReq : Bool} (h : e.passesBy capReq = true) (rest : List Input) :
    turnAhead (e :: rest) = turnAhead rest := by
  cases e with
  | turn | reset => exact nomatch h
  | regWrite | regRead | outRead | outWrite | rawWrite | capDone => rfl

theorem turnAhead_of_turned {s : State} {rest : List Input}
    (hi : s.inputs = .turn :: rest ∨ (s.inputs = [] ∧ rest = [])) : turnAhead s.inputs = some rest := by
  rcases hi with hi | ⟨hi, rfl⟩ <;> rw [hi] <;> rfl

/-- Where an answer is asked for, a move on which the controller does nothing does not end the capture. -/
theorem endsCapture_of_passesBy {e : Input} (h : e.passesBy true = true) : e.endsCapture = false := by
  cases e with
  | turn | reset | capDone => exact nomatch h
  | regWrite | regRead | outRead | outWrite | rawWrite => rfl

section Phases

variable {s : State} (j : Nat)

theorem willWrite_check (hp : s.phase = .check) (hpass : (s.legacyUnchecked || s.requestSupported) = true) :
    s.willWrite j = (turnAhead s.inputs).bind (captureWrites s.legacyUnchecked j) := by
  simp only [State.willWrite, hp, hpass, if_true]
  cases turnAhead s.inputs <;> rfl

theorem willWrite_check_refuse (hp : s.phase = .check) (hrefuse : (s.legacyUnchecked || s.requestSupported) = false) :
    s.willWrite j = none := by
  simp [State.willWrite, hp, hrefuse]

theorem willWrite_capture (hp : s.phase = .capture) :
    s.willWrite j = captureWrites s.legacyUnchecked j s.inputs := by
  simp only [State.willWrite, hp]

theorem willWrite_convert (hp : s.phase = .convert) :
    s.willWrite j = (turnAhead s.inputs).map fun _ => lumaOf (s.rawAt (srcAddrOf j)) := by
  simp only [State.willWrite, hp]

theorem willWrite_resample (hp : s.phase = .resample) : s.willWrite j = some (s.sampleAt j) := by
  simp only [State.willWrite, hp]

end Phases

/-- What the command will write hangs on the move at hand only where that move is the controller's, or a reset. -/
theorem willWrite_withInputs {s : State} (hinv : s.Inv) {e : Input} {rest : List Input} (hi : s.inputs = e :: rest)
    (he : e.passesBy s.capReq = true) (j : Nat) : (s.withInputs rest).willWrite j = s.willWrite j := by
  have hturn : turnAhead s.inputs = turnAhead rest := by rw [hi, turnAhead_skip he]
  cases hp : s.phase with
  | idle => simp only [State.willWrite, withInputs_phase, hp]
  | check =>
    cases hpass : s.legacyUnchecked || s.requestSupported with
    | true => rw [willWrite_check j hp hpass, hturn]; exact willWrite_check (s := s.withInputs rest) j hp hpass
    | false =>
      rw [willWrite_check_refuse j hp hpass]
      exact willWrite_check_refuse (s := s.withInputs rest) j hp hpass
  | capture =>
    have hreq : s.capReq = true := hinv.capReq_iff.trans (decide_eq_true hp)
    rw [willWrite_capture j hp, hi, captureWrites_skip _ _ _ (endsCapture_of_passesBy (hreq ▸ he))]
    exact willWrite_capture (s := s.withInputs rest) j hp
  | convert => rw [willWrite_convert j hp, hturn]; exact willWrite_convert (s := s.withInputs rest) j hp
  | resample => rw [willWrite_resample j hp]; exact willWrite_resample (s := s.withInputs rest) j hp

/-- What the running command was to write is what it is still to write, or, where it has ended, what it left. -/
def Foreseen (s t : State) (j : Nat) : Prop :=
  (t.phase ≠ .idle → t.willWrite j = s.willWrite j) ∧
  (t.phase = .idle →
    (s.willWrite j = none ∧ t.outAt j = s.outAt j) ∨ s.willWrite j = some (t.outAt j) ∨
      (j ∈ s.outRaces ∧ t.outAt j = s.outAt j))

theorem foreseen_of_running {s t : State} {j : Nat} (hbusy : t.phase ≠ .idle) (h : t.willWrite j = s.willWrite j) :
    Foreseen s t j := ⟨fun _ => h, fun hp => absurd hp hbusy⟩

theorem foreseen_of_unwritten {s t : State} {j : Nat} (hp : t.phase = .idle) (h : s.willWrite j = none)
    (hout : t.outAt j = s.outAt j) : Foreseen s t j := ⟨fun hbusy => absurd hp hbusy, fun _ => .inl ⟨h, hout⟩⟩

/-- A raced element keeps the host's value, any other gets its sample. -/
theorem resampled_eq_or_raced (s : State) (j : Nat) :
    s.resampled j = s.sampleAt j ∨ (j ∈ s.outRaces ∧ s.resampled j = s.outAt j) := by
  by_cases hj : j ∈ s.outRaces
  · exact (resampled_cases j).symm.imp_right fun h => ⟨hj, h⟩
  · exact .inl (resampled_of_not_raced hj)

/-- A turn without an answer does what was foreseen. -/
theorem foreseen_of_turn {s t : State} {rest : List Input} {j : Nat} (hj : j < Config.nOut)
    (hbusy : s.phase ≠ .idle) (hd : s.capDone = none)
    (hi : s.inputs = .turn :: rest ∨ (s.inputs = [] ∧ rest = [])) (h : TurnEffect (s.withInputs rest) t) :
    Foreseen s t j := by
  have hturn := turnAhead_of_turned hi
  cases h with
  | rested hp => exact absurd hp hbusy
  | requested hp hpass =>
    refine foreseen_of_running nofun ?_
    rw [willWrite_check (s := s) j hp hpass, hturn]
    exact willWrite_capture (s := requestCapture (s.withInputs rest)) j rfl
  | requestRefused hp hrefuse => exact foreseen_of_unwritten rfl (willWrite_check_refuse (s := s) j hp hrefuse) rfl
  | waited hp =>
    refine foreseen_of_running hbusy ?_
    rw [willWrite_capture (s := s) j hp, willWrite_capture (s := s.withInputs rest) j hp]
    rcases hi with hi | ⟨hi, rfl⟩
    · rw [hi, captureWrites_skip _ _ _ rfl]; rfl
    · rw [hi]; rfl
  | captured a _ hd' | captureFailed a _ hd' => exact nomatch hd.symm.trans hd'
  | converted hp =>
    refine foreseen_of_running nofun ?_
    rw [willWrite_convert (s := s) j hp, hturn, willWrite_resample j rfl, State.sampleAt,
      converted_lumaAt (srcAddrOf_lt hj)]
    rfl
  | delivered hp =>
    refine ⟨fun hne => absurd rfl hne, fun _ => .inr ?_⟩
    rw [willWrite_resample (s := s) j hp, sampled_outAt hj]
    exact (resampled_eq_or_raced (s.withInputs rest) j).imp_left fun h => congrArg some h.symm

/-- The turn an answer brings about does what was foreseen. -/
theorem foreseen_of_answer {s t : State} {a : CapAnswer} {rest : List Input} {j : Nat} (hj : j < Config.nOut)
    (hp : s.phase = .capture) (hi : s.inputs = .capDone a :: rest)
    (h : TurnEffect ((s.withInputs rest).presentAnswer a) t) : Foreseen s t j := by
  have hforeseen := willWrite_capture j hp
  rw [hi] at hforeseen
  cases h with
  | rested hp' | requested hp' | requestRefused hp' | converted hp' | delivered hp' => exact nomatch hp.symm.trans hp'
  | waited _ hd => exact nomatch hd
  | captured b _ hd hok =>
    cases hd
    refine foreseen_of_running nofun ?_
    rw [hforeseen, captureWrites_ok s.legacyUnchecked _ _ hok, willWrite_convert j rfl,
      enterConvert_rawAt a (srcAddrOf_lt hj)]
    rfl
  | captureFailed b _ hd hfail =>
    cases hd
    exact foreseen_of_unwritten rfl (hforeseen.trans (captureWrites_fail _ _ _ hfail)) rfl

/-- No step of a running command but a reset changes what it will write, and where it ends it has written it. -/
theorem step_foreseen {s t : State} {j : Nat} (hinv : s.Inv) (hbusy : s.phase ≠ .idle)
    (hreset : s.inputs.head? ≠ some .reset) (h : step s = .next t) (hj : j < Config.nOut) : Foreseen s t j := by
  cases step_effect h with
  | passed e rest _ _ hi he => exact foreseen_of_running hbusy (willWrite_withInputs hinv hi he j)
  | accepted _ _ _ hp | outWritten _ _ _ _ _ hp => exact absurd hp hbusy
  | outRaced i v rest hi => exact foreseen_of_running hbusy (willWrite_withInputs hinv hi rfl j)
  | rawWritten i v rest hi _ hreq =>
    have hp : s.phase = .capture := phase_of_capReq hinv hreq
    have hsame : ((s.withInputs rest).putRaw i v).willWrite j = (s.withInputs rest).willWrite j := by
      rw [willWrite_capture (s := (s.withInputs rest).putRaw i v) j hp, willWrite_capture (s := s.withInputs rest) j hp]
      rfl
    exact foreseen_of_running hbusy (hsame.trans (willWrite_withInputs hinv hi rfl j))
  | aborted rest hi => exact absurd (congrArg List.head? hi) hreset
  | turned rest hi hturn => exact foreseen_of_turn hj hbusy hinv.no_answer hi hturn
  | answered a rest hi hreq hturn => exact foreseen_of_answer hj (phase_of_capReq hinv hreq) hi hturn

/-- Settles O14: the accesses by `readOut_busy` and `writeOut_busy`, RESAMPLE by `resampled_eq_or_raced`, and the value
foreseen by `step_foreseen`. -/
theorem racedOutAccessesGiveOneOfTwoValues : Obligations.RacedOutAccessesGiveOneOfTwoValues := by
  unfold Obligations.RacedOutAccessesGiveOneOfTwoValues
  refine fun s => ⟨fun i rest hi hbusy hlt => ⟨_, ?_, (step_cons hi).trans (readOut_busy hlt hbusy)⟩,
    fun i v rest hi hbusy hlt => ?_,
    ⟨_, exec_resample s, fun j hj => ?_, sampled_rawAt, sampled_lumaAt, sampled_frame s⟩,
    fun hinv hbusy hreset t j h hj => step_foreseen hinv hbusy hreset h hj⟩
  · split
    · exact .inl rfl
    · exact commandByte_cases i
  · have hstep : step s = .next ((s.withInputs rest).putOutRaced i v) := (step_cons hi).trans (writeOut_busy hlt hbusy)
    exact ⟨_, hstep, outAt_putOut_self (s.withInputs rest) i v, fun _ hj => outAt_putOut_other (s.withInputs rest) v hj,
      fun _ => rfl, fun _ => rfl, rfl⟩
  · rw [sampled_outAt hj]
    exact resampled_eq_or_raced s j

end Sys2Proof.Machine

/-! PROOFS. Whole commands (42_pipeline.md sections 5 and 6): the run of a command, stage by stage, and what it
leaves. -/

namespace Sys2Proof.Machine

/-! ### The stages as steps -/

/-- 42_pipeline.md R88: the turn that runs CHECK asks for a capture. -/
theorem step_turn_check_pass {s : State} {rest : List Input} (hp : s.phase = .check)
    (hpass : (s.legacyUnchecked || s.requestSupported) = true) (hi : s.inputs = .turn :: rest) :
    step s = .next (requestCapture (s.withInputs rest)) :=
  (step_cons hi).trans ((controllerTurn_check (s := s.withInputs rest) hp).trans (execCheck_pass hpass))

section Answer

variable {s : State} {a : CapAnswer} {rest : List Input} (hp : s.phase = .capture) (hreq : s.capReq = true)
  (hi : s.inputs = .capDone a :: rest)
include hp hreq hi

theorem step_answer : step s = execCapture ((s.withInputs rest).presentAnswer a) :=
  ((step_cons hi).trans (applyInput_capDone hreq)).trans
    (controllerTurn_capture (s := (s.withInputs rest).presentAnswer a) hp)

theorem step_answer_ok (hok : (s.legacyUnchecked || a.capOk) = true) :
    step s = .next (enterConvert a ((s.withInputs rest).presentAnswer a)) :=
  (step_answer hp hreq hi).trans (execCapture_ok rfl hok)

theorem step_answer_fail (hfail : (s.legacyUnchecked || a.capOk) = false) :
    step s = .next (complete .captureFailure (endCapture a ((s.withInputs rest).presentAnswer a))) :=
  (step_answer hp hreq hi).trans (execCapture_fail rfl hfail)

end Answer

theorem step_turn_convert {s : State} {rest : List Input} (hp : s.phase = .convert) (hi : s.inputs = .turn :: rest) :
    step s = .next (s.withInputs rest).converted :=
  (step_cons hi).trans (controllerTurn_convert hp)

theorem step_turn_resample {s : State} {rest : List Input} (hp : s.phase = .resample) (hi : s.inputs = .turn :: rest) :
    step s = .next (complete .ok (s.withInputs rest).sampled) :=
  (step_cons hi).trans (controllerTurn_resample hp)

/-! ### Up to the answer -/

theorem captureScript_append (c : CmdWord) (q w : List Input) (a : CapAnswer) (rest : List Input) :
    captureScript c q w a ++ rest = .cmdWrite c :: (q ++ .turn :: (w ++ .capDone a :: rest)) := by
  simp [captureScript]

theorem commandScript_append (c : CmdWord) (q w : List Input) (a : CapAnswer) (q₁ q₂ rest : List Input) :
    commandScript c q w a q₁ q₂ ++ rest =
      captureScript c q w a ++ (q₁ ++ .turn :: (q₂ ++ .turn :: rest)) := by
  simp [commandScript]

/-- The block while the capture of the command `c` waits: the command was accepted in `s`, CHECK passed, and since then
the host has read and the FrameSource may have written `RAW`. -/
def State.awaiting (s : State) (c : CmdWord) (moves : List Input) (raw : List (Nat × Pixel))
    (observed : List Observation) (draws : Nat) : State :=
  { requestCapture (acceptCommand c s) with
    inputs := moves, mem := { s.mem with raw := raw }, observed := observed, draws := draws }

/-- The moves of a command whose request passes CHECK, up to the answer, bring the block to wait for it. -/
theorem stepsTo_awaiting {s : State} {c : CmdWord} {q w rest : List Input} {a : CapAnswer} (hinv : s.Inv)
    (hp : s.phase = .idle)
    (hpass : ((acceptCommand c s).legacyUnchecked || (acceptCommand c s).requestSupported) = true)
    (hq : ∀ e ∈ q, e.quiet s.cmdMisuseRefused = true) (hw : ∀ e ∈ w, e.waits s.cmdMisuseRefused = true)
    (hi : s.inputs = captureScript c q w a ++ rest) :
    ∃ raw observed draws,
      stepsTo (q.length + w.length + 2) s (s.awaiting c (.capDone a :: rest) raw observed draws) := by
  rw [captureScript_append] at hi
  have haccept := step_cmdWrite_idle hp hi
  obtain ⟨obs, d, hquiet⟩ := stepsTo_quiet
    (s := acceptCommand c (s.withInputs (q ++ .turn :: (w ++ .capDone a :: rest)))) nofun rfl hq
  have hcheck := step_turn_check_pass
    (s := { acceptCommand c s with inputs := .turn :: (w ++ .capDone a :: rest), observed := obs, draws := d })
    rfl hpass rfl
  obtain ⟨obs', d', raw, hwait⟩ := stepsTo_waits (w := w) (rest := .capDone a :: rest)
    (s := { requestCapture (acceptCommand c s) with inputs := w ++ .capDone a :: rest, observed := obs, draws := d })
    rfl rfl hinv.no_answer rfl hw
  refine ⟨raw, obs', d', ?_⟩
  have hrun := stepsTo_trans (stepsTo_one haccept) (stepsTo_trans hquiet (stepsTo_trans (stepsTo_one hcheck) hwait))
  rwa [show 1 + (q.length + (1 + w.length)) = q.length + w.length + 2 by omega] at hrun

/-! ### After the answer -/

/-- `t` is where a command ends that delivers the tensor of the frame `pixel`, with the moves `rest` still to come. -/
structure Delivered (pixel : Nat → Pixel) (rest : List Input) (t : State) : Prop where
  phase : t.phase = .idle
  done : t.done = true
  code : t.code = .ok
  inputs : t.inputs = rest
  raw : ∀ i, i < Config.nPix → t.rawAt i = pixel i
  luma : ∀ i, i < Config.nPix → t.lumaAt i = lumaOf (pixel i)
  out : ∀ x y, x < 32 → y < 32 → t.outAt (y * 32 + x) = lumaOf (pixel (srcY y * 176 + srcX x))

theorem srcAddr_lt {x y : Nat} (hx : x < 32) (hy : y < 32) : srcY y * 176 + srcX x < Config.nPix := by
  rw [srcX_eq, srcY_eq, Config.nPix]
  omega

/-- CONVERT and RESAMPLE, each after moves of the host, deliver the tensor of what `RAW` holds. -/
theorem stepsTo_delivered {s : State} {q₁ q₂ rest : List Input} {pixel : Nat → Pixel} (hp : s.phase = .convert)
    (hraces : s.outRaces = []) (hraw : ∀ i, i < Config.nPix → s.rawAt i = pixel i)
    (hq₁ : ∀ e ∈ q₁, e.quiet s.cmdMisuseRefused = true) (hq₂ : ∀ e ∈ q₂, e.quiet s.cmdMisuseRefused = true)
    (hi : s.inputs = q₁ ++ .turn :: (q₂ ++ .turn :: rest)) :
    ∃ t, stepsTo (q₁.length + q₂.length + 2) s t ∧ Delivered pixel rest t := by
  obtain ⟨obs, d, hquiet₁⟩ := stepsTo_quiet (by simp [hp]) hi hq₁
  have hconvert := step_turn_convert
    (s := { s with inputs := .turn :: (q₂ ++ .turn :: rest), observed := obs, draws := d }) hp rfl
  obtain ⟨obs', d', hquiet₂⟩ := stepsTo_quiet (q := q₂) (rest := .turn :: rest)
    (s := State.converted { s with inputs := q₂ ++ .turn :: rest, observed := obs, draws := d }) nofun rfl hq₂
  have hresample := step_turn_resample (rest := rest)
    (s := { s.converted with inputs := .turn :: rest, observed := obs', draws := d' }) rfl rfl
  have hrun := stepsTo_trans hquiet₁
    (stepsTo_trans (stepsTo_one hconvert) (stepsTo_trans hquiet₂ (stepsTo_one hresample)))
  rw [show q₁.length + (1 + (q₂.length + 1)) = q₁.length + q₂.length + 2 by omega] at hrun
  have hluma : ∀ i, i < Config.nPix → s.converted.lumaAt i = lumaOf (pixel i) := fun i hlt => by
    rw [converted_lumaAt hlt, hraw i hlt]
  refine ⟨_, hrun, rfl, rfl, rfl, rfl, hraw, hluma, fun x y hx hy => ?_⟩
  exact (sampled_outAt_pixel
    (s := State.withInputs { s.converted with inputs := .turn :: rest, observed := obs', draws := d' } rest)
    hraces hx hy).trans (hluma _ (srcAddr_lt hx hy))

/-! ### The command -/

theorem request_passes {s : State} {c : CmdWord} (h : s.legacyUnchecked = true ∨ c = 0x01020020#32) :
    ((acceptCommand c s).legacyUnchecked || (acceptCommand c s).requestSupported) = true := by
  rw [Bool.or_eq_true, requestSupported_acceptCommand]
  exact h

theorem quiet_parts {q q₁ q₂ : List Input} {refused : Bool} (h : ∀ e ∈ q ++ q₁ ++ q₂, e.quiet refused = true) :
    (∀ e ∈ q, e.quiet refused = true) ∧ (∀ e ∈ q₁, e.quiet refused = true) ∧ ∀ e ∈ q₂, e.quiet refused = true := by
  rw [List.forall_mem_append, List.forall_mem_append] at h
  exact ⟨h.1.1, h.1.2, h.2⟩

/-- A command that passes CHECK and whose answer is taken as a frame runs to the tensor of that frame. -/
theorem command_delivers {s : State} {c : CmdWord} {q w q₁ q₂ rest : List Input} {a : CapAnswer} (hinv : s.Inv)
    (hp : s.phase = .idle) (hrequest : s.legacyUnchecked = true ∨ c = 0x01020020#32)
    (hok : (s.legacyUnchecked || a.capOk) = true) (hq : ∀ e ∈ q ++ q₁ ++ q₂, e.quiet s.cmdMisuseRefused = true)
    (hw : ∀ e ∈ w, e.waits s.cmdMisuseRefused = true) (hi : s.inputs = commandScript c q w a q₁ q₂ ++ rest) :
    ∃ t, stepsTo (q.length + w.length + q₁.length + q₂.length + 5) s t ∧ Delivered a.frame.at rest t := by
  obtain ⟨hq₀, hq₁, hq₂⟩ := quiet_parts hq
  rw [commandScript_append] at hi
  obtain ⟨raw, obs, d, hwait⟩ := stepsTo_awaiting hinv hp (request_passes hrequest) hq₀ hw hi
  have hanswer := step_answer_ok (a := a) (rest := q₁ ++ .turn :: (q₂ ++ .turn :: rest))
    (s := s.awaiting c (.capDone a :: (q₁ ++ .turn :: (q₂ ++ .turn :: rest))) raw obs d) rfl rfl rfl hok
  obtain ⟨t, hstages, ht⟩ := stepsTo_delivered (q₁ := q₁) (q₂ := q₂) (rest := rest)
    (s := enterConvert a (State.presentAnswer (s.awaiting c (q₁ ++ .turn :: (q₂ ++ .turn :: rest)) raw obs d) a))
    rfl (hinv.idle_no_races hp) (fun _ hlt => enterConvert_rawAt a hlt) hq₁ hq₂ rfl
  have hrun := stepsTo_trans hwait (stepsTo_trans (stepsTo_one hanswer) hstages)
  rw [show q.length + w.length + 2 + (1 + (q₁.length + q₂.length + 2)) =
    q.length + w.length + q₁.length + q₂.length + 5 by omega] at hrun
  exact ⟨t, hrun, ht⟩

/-- 60_exceptions.md R101: after a command `STATUS` reads its code and `DONE`. -/
theorem complete_statusWord (c : Code) (s : State) :
    (complete c s).statusWord = 0#28 ++ c.bits ++ BitVec.ofBool true ++ BitVec.ofBool false := by
  have hbusy : (complete c s).busy = false := not_busy_iff.2 rfl
  rw [State.statusWord, hbusy, complete_done, complete_code]

/-- Settles O56: `command_delivers`, with the tables for the coordinates. -/
theorem supportedCommandDeliversTheTensor : Obligations.SupportedCommandDeliversTheTensor := by
  unfold Obligations.SupportedCommandDeliversTheTensor
  intro s q w q₁ q₂ F rest hinv hp _ hq hw hi
  obtain ⟨t, hrun, ht⟩ := command_delivers hinv hp (.inr rfl) (by simp) hq hw hi
  have hstatus : t.statusWord = 2#32 := statusWord_of ht.phase ht.done ht.code
  refine ⟨t, hrun, ht.phase, ht.done, ht.code, hstatus, ht.inputs, fun i hlt => ⟨ht.raw i hlt, ht.luma i hlt⟩,
    fun x y hx hy => ?_⟩
  exact ⟨srcX x, srcY y, lutX_eq_srcX x hx, lutY_eq_srcY y hy, ht.out x y hx hy⟩

/-- Settles O59: two delivered tensors are one function of the frame, and the frames agree wherever it looks. -/
theorem equalFramesGiveEqualTensors : Obligations.EqualFramesGiveEqualTensors := by
  unfold Obligations.EqualFramesGiveEqualTensors
  intro s s' q w q₁ q₂ q' w' q₁' q₂' F F' rest rest' hinv hinv' hp hp' _ _ hq hw hq' hw' hframes hi hi'
  obtain ⟨t, hrun, ht⟩ := command_delivers hinv hp (.inr rfl) (by simp) hq hw hi
  obtain ⟨t', hrun', ht'⟩ := command_delivers hinv' hp' (.inr rfl) (by simp) hq' hw' hi'
  refine ⟨t, t', hrun, hrun', ht.phase, ht'.phase, ht.code, ht'.code, fun j hj => ?_⟩
  have hx : j % 32 < 32 := Nat.mod_lt j (by decide)
  have hy : j / 32 < 32 := Nat.div_lt_of_lt_mul hj
  have hpixel : j / 32 * 32 + j % 32 = j := Nat.div_add_mod' j 32
  rw [← hpixel, ht.out _ _ hx hy, ht'.out _ _ hx hy, hframes _ (srcAddr_lt hx hy)]

/-- Settles O58: the failing answer ends the command where it waits; only `RAW` was touched since its start. -/
theorem failedCaptureLeavesTheTensor : Obligations.FailedCaptureLeavesTheTensor := by
  unfold Obligations.FailedCaptureLeavesTheTensor
  intro s q w F rest hinv hp hlegacy hq hw hi
  obtain ⟨raw, obs, d, hwait⟩ := stepsTo_awaiting hinv hp (request_passes (.inr rfl)) hq hw hi
  have hanswer := step_answer_fail (a := { capOk := false, frame := F }) (rest := rest)
    (s := s.awaiting 0x01020020#32 (.capDone { capOk := false, frame := F } :: rest) raw obs d) rfl rfl rfl
    (by rw [Bool.or_false]; exact hlegacy)
  have hrun := stepsTo_trans hwait (stepsTo_one hanswer)
  exact ⟨_, hrun, rfl, rfl, rfl, complete_statusWord .captureFailure _, rfl,
    fun _ hlt => endCapture_rawAt { capOk := false, frame := F } s hlt, fun _ => rfl, fun _ => rfl⟩

/-- Settles O57: acceptance, then the refusal of CHECK; neither touches a buffer or `CAP_REQ`. -/
theorem unsupportedCommandLeavesTheBuffers : Obligations.UnsupportedCommandLeavesTheBuffers := by
  unfold Obligations.UnsupportedCommandLeavesTheBuffers
  intro s c rest hp hreq hlegacy hc hi
  have haccept : step s = .next (acceptCommand c (s.withInputs (.turn :: rest))) := step_cmdWrite_idle hp hi
  have hunsupported : (acceptCommand c (s.withInputs (.turn :: rest))).requestSupported = false :=
    Bool.eq_false_iff.2 (mt (requestSupported_acceptCommand c _).1 hc)
  have hcheck := step_turn_check_refuse (s := acceptCommand c (s.withInputs (.turn :: rest))) rfl hlegacy
    hunsupported rfl
  exact ⟨_, _, haccept, rfl, hreq, hcheck, rfl, rfl, rfl, complete_statusWord .unsupportedResolution _, hreq,
    rfl, fun _ => rfl, fun _ => rfl, fun _ => rfl⟩

/-! ### `LEGACY_UNCHECKED` -/

/-- With the parameter set no turn writes an error (42_pipeline.md R99). -/
theorem turn_code_of_legacy {s t : State} (hlegacy : s.legacyUnchecked = true) (hcode : s.code = .ok)
    (h : TurnEffect s t) : t.code = .ok := by
  cases h with
  | rested | requested | waited | captured | converted => exact hcode
  | requestRefused _ hrefuse => simp [hlegacy] at hrefuse
  | captureFailed _ _ _ hfail => simp [hlegacy] at hfail
  | delivered => rfl

theorem step_code_of_legacy {s t : State} (hlegacy : s.legacyUnchecked = true) (hcode : s.code = .ok)
    (h : step s = .next t) : t.code = .ok := by
  cases step_effect h with
  | passed | outWritten | outRaced | rawWritten => exact hcode
  | accepted | aborted => rfl
  | turned rest _ hturn => exact turn_code_of_legacy (s := s.withInputs rest) hlegacy hcode hturn
  | answered a rest _ _ hturn =>
    exact turn_code_of_legacy (s := (s.withInputs rest).presentAnswer a) hlegacy hcode hturn

/-- Settles O60: the parameter is kept, an error needs a branch it closes, and `command_delivers` needs neither a
supported request nor `CAP_OK` where it is set. -/
theorem legacyCommandAlwaysEndsOk : Obligations.LegacyCommandAlwaysEndsOk := by
  unfold Obligations.LegacyCommandAlwaysEndsOk
  refine ⟨fun s t hinv hlegacy hcode h => ?_, fun s c q w q₁ q₂ a rest hinv hp hlegacy hq hw hi => ?_⟩
  · obtain ⟨hkept, -⟩ := step_parameters h
    exact ⟨everyStepKeepsTheInvariant s t hinv h, hkept.trans hlegacy, step_code_of_legacy hlegacy hcode h⟩
  · obtain ⟨t, hrun, ht⟩ := command_delivers hinv hp (.inl hlegacy) (by simp [hlegacy]) hq hw hi
    exact ⟨t, hrun, ht.phase, ht.done, ht.code, ht.out⟩

end Sys2Proof.Machine
